-- ==== Sys2Proof/Word.lean ====
section
/-! DEFINITION. The word types of the block: every value is an unsigned bit vector (00_scope.md R6). -/

namespace Sys2Proof

/-- CRC width in bits and the width of every data byte (00_scope.md R5 `W`). It stands here, before the
other constants of R5 in Config.lean, because they are bytes. -/
abbrev Config.W : Nat := 8

/-- A byte: `din`, `cmd`, `crc` and the byte-wide output ports (00_scope.md R5, R6). -/
abbrev Byte := BitVec Config.W

/-- The operation code of the CRC unit, port `op[1:0]` (10_state.md R29). -/
abbrev OpCode := BitVec 2

/-- The control word `{op, din}` of the CRC unit: the two bits of `op` above a byte (30_encoding.md R60). -/
abbrev ControlWord := BitVec (2 + Config.W)

end Sys2Proof
end

