-- ==== Sys2Proof/Config.lean ====
section
/-! DEFINITION. The fixed values of the block, one named constant each (00_scope.md R5, D23; `W` stands
in Word.lean), and the free values: constants without a body, so that nothing can be proved of them. -/

namespace Sys2Proof.Config

/-- Feedback polynomial, top term implicit (R5 `POLY`). -/
def POLY : Byte := 0x07
/-- Initial running value (R5 `CRC_INIT`). -/
def CRC_INIT : Byte := 0x00
/-- Mask that turns a command byte into a register address (R5 `RMASK`). -/
def RMASK : Byte := 0x07
/-- The sensor's address on the two-wire bus, as given (R5 `DEV_ADDR`, R101). -/
def DEV_ADDR : Byte := 0x80
/-- Frame header byte, context (R5 `SENTINEL`, R71). -/
def SENTINEL : Byte := 0x23
/-- Host frame length in bytes, context (R5 `FRAME_LEN`, R69). -/
def FRAME_LEN : Nat := 6

/-! The operation codes (30_encoding.md R61). -/

def OP_NOP : OpCode := 0b00
def OP_INIT : OpCode := 0b01
def OP_UPD : OpCode := 0b10
def OP_INITUPD : OpCode := 0b11

/-! The command codes (30_encoding.md R65). -/

def CMD_CONFIGURE : Byte := 0x50
def CMD_READ_SHUNT_VOLTAGE : Byte := 0x51
def CMD_READ_BUS_VOLTAGE : Byte := 0x52
def CMD_READ_POWER : Byte := 0x53
def CMD_READ_CURRENT : Byte := 0x54
def CMD_CALIBRATE : Byte := 0x55
def CMD_READ_ALL : Byte := 0x56

/-- The seven known command codes, in the order of R65. -/
def commandCodes : List Byte :=
  [CMD_CONFIGURE, CMD_READ_SHUNT_VOLTAGE, CMD_READ_BUS_VOLTAGE, CMD_READ_POWER,
   CMD_READ_CURRENT, CMD_CALIBRATE, CMD_READ_ALL]

/-- The `cmd` input of an assembler line that does not name one (30_encoding.md R73). -/
def CMD_OMITTED : Byte := 0x00
/-- The `din` input of an assembler line whose operation ignores it (30_encoding.md R73). -/
def DIN_OMITTED : Byte := 0x00

/-! The error reply of the surrounding system, context (60_exceptions.md R126). -/

def ERROR_MARKER : Byte := 0x3F
def ERR_CHECKSUM : Byte := 0x30
def ERR_HEADER : Byte := 0x31

/-! The write status of a reply, context (30_encoding.md R72). -/

def WRITE_SUCCESS : Byte := 0x00
def WRITE_FAILURE : Byte := 0x01

/-! Free values. -/

/-- The value of `crc` after the `n`-th power-up, before the first reset: any value
(70_reset_and_hazards.md R142, U15). -/
opaque powerUpCrc : Nat → Byte

/-- The `rst` input of the `n`-th step for which no input is listed: any value (10_state.md R32; log 1). -/
opaque callerRst : Nat → Bool
/-- The `op` input of the `n`-th step for which no input is listed: any value (log 1). -/
opaque callerOp : Nat → OpCode
/-- The `din` input of the `n`-th step for which no input is listed: any value (log 1). -/
opaque callerDin : Nat → Byte
/-- The `cmd` input of the `n`-th step for which no input is listed: any value (log 1). -/
opaque callerCmd : Nat → Byte

end Sys2Proof.Config
end

