-- ==== Sys2Proof/Syntax.lean ====
section
/-! DEFINITION. The instructions of the block: one constructor per row of opcode_table.json. -/

namespace Sys2Proof

/-- An operation of the CRC unit or a look-up of the mapper. NOP and INIT keep the `din` they
ignore, so that each of the 1024 control words is one instruction (30_encoding.md R62, R63; log 9). -/
inductive Instr where
  /-- NOP, `op = 00` (40_crc.md R84). -/
  | nop (din : Byte)
  /-- INIT, `op = 01` (R85). -/
  | init (din : Byte)
  /-- UPD, `op = 10` (R86). -/
  | upd (din : Byte)
  /-- INITUPD, `op = 11` (R87). -/
  | initupd (din : Byte)
  /-- Configure, `cmd = 0x50` (41_mapper.md R105). -/
  | mapConfigure
  /-- ReadShuntVoltage, `cmd = 0x51` (R106). -/
  | mapReadShuntVoltage
  /-- ReadBusVoltage, `cmd = 0x52` (R107). -/
  | mapReadBusVoltage
  /-- ReadPower, `cmd = 0x53` (R108). -/
  | mapReadPower
  /-- ReadCurrent, `cmd = 0x54` (R109). -/
  | mapReadCurrent
  /-- Calibrate, `cmd = 0x55` (R110). -/
  | mapCalibrate
  /-- ReadAll, `cmd = 0x56` (R111). -/
  | mapReadAll
  /-- An unknown command byte: any of the 249 values that are no code (R112). -/
  | mapUnknown (cmd : Byte)
  deriving DecidableEq, Repr

end Sys2Proof
end

