-- ==== Sys2Proof/WellFormed.lean ====
section
/-! DEFINITION. Which terms of `Instr` are instructions of the hardware. -/

namespace Sys2Proof

/-- The check: an unknown-command look-up carries none of the seven command codes (41_mapper.md R112,
30_encoding.md R68); every other term is an instruction for every operand (R63). -/
def Instr.wellFormed : Instr → Bool
  | .nop _ | .init _ | .upd _ | .initupd _ => true
  | .mapConfigure | .mapReadShuntVoltage | .mapReadBusVoltage | .mapReadPower
  | .mapReadCurrent | .mapCalibrate | .mapReadAll => true
  | .mapUnknown cmd => decide (cmd ∉ Config.commandCodes)

/-- The term is an instruction of the hardware. -/
abbrev Instr.WellFormed (i : Instr) : Prop := i.wellFormed = true

end Sys2Proof
end

