-- ==== Sys2Proof/Decode.lean ====
section
/-! DEFINITION. Decoding of the two input formats, the encoder, and the opcode table as the spec
prints it. Neither format has a reserved word (30_encoding.md R63, R67); what is refused by name is
a bit string that fits neither input port (10_state.md R32 "An input outside these widths cannot be
presented"). -/

namespace Sys2Proof

/-- A word on one of the two decoded inputs: the control word of the CRC unit (30_encoding.md R60) or
the command byte of the mapper (R64). -/
inductive PortWord where
  | ctl (w : ControlWord)
  | cmd (c : Byte)
  deriving DecidableEq, Repr

/-- Why a string of bytes is no word of either port. -/
inductive DecodeError where
  /-- No byte at all. -/
  | noBytes
  /-- Two bytes of which the second has bits above `ctl[9]` set. -/
  | aboveControlWord (high : Byte)
  /-- More bytes than either port is wide. -/
  | tooManyBytes (count : Nat)
  deriving DecidableEq, Repr

/-- `op = ctl[9:8]` (R60). -/
def opField (w : ControlWord) : OpCode := w.extractLsb' Config.W 2

/-- `din = ctl[7:0]` (R60). -/
def dinField (w : ControlWord) : Byte := w.extractLsb' 0 Config.W

/-- `ctl = {op, din}` (R60). -/
def controlWord (op : OpCode) (din : Byte) : ControlWord := op ++ din

/-- The operation of a control word; `op` alone selects it (R60, R61). -/
def decodeCtl (w : ControlWord) : Instr :=
  if opField w = Config.OP_NOP then .nop (dinField w)
  else if opField w = Config.OP_INIT then .init (dinField w)
  else if opField w = Config.OP_UPD then .upd (dinField w)
  else .initupd (dinField w)

/-- The look-up of a command byte, by exact equality with the seven codes; every other byte is the
unknown row (R65, R68). -/
def decodeCmd (c : Byte) : Instr :=
  if c = Config.CMD_CONFIGURE then .mapConfigure
  else if c = Config.CMD_READ_SHUNT_VOLTAGE then .mapReadShuntVoltage
  else if c = Config.CMD_READ_BUS_VOLTAGE then .mapReadBusVoltage
  else if c = Config.CMD_READ_POWER then .mapReadPower
  else if c = Config.CMD_READ_CURRENT then .mapReadCurrent
  else if c = Config.CMD_CALIBRATE then .mapCalibrate
  else if c = Config.CMD_READ_ALL then .mapReadAll
  else .mapUnknown c

/-- Decoding of a word on a port: total, since every word of either format is defined (R63, R67). -/
def decodeWord : PortWord → Instr
  | .ctl w => decodeCtl w
  | .cmd c => decodeCmd c

/-- The word a string of bytes stands for: one byte is a command byte, two bytes are a control word,
low byte first, whose six bits above `ctl[9]` are zero. DESIGN CHOICE: the spec stores words nowhere
(log 6). -/
def PortWord.ofBytes : List Byte → Except DecodeError PortWord
  | [] => .error .noBytes
  | [c] => .ok (.cmd c)
  | [lo, hi] =>
    if hi.extractLsb' 2 6 = 0 then .ok (.ctl (controlWord (hi.extractLsb' 0 2) lo))
    else .error (.aboveControlWord hi)
  | bytes => .error (.tooManyBytes bytes.length)

/-- The decoder, total on any bytes, refusing by name. -/
def decode (bytes : List Byte) : Except DecodeError Instr :=
  (PortWord.ofBytes bytes).map decodeWord

/-! ### The encoder -/

/-- The word of an instruction (R61, R65; an unknown command byte is its own code, R112). -/
def encode : Instr → PortWord
  | .nop din => .ctl (controlWord Config.OP_NOP din)
  | .init din => .ctl (controlWord Config.OP_INIT din)
  | .upd din => .ctl (controlWord Config.OP_UPD din)
  | .initupd din => .ctl (controlWord Config.OP_INITUPD din)
  | .mapConfigure => .cmd Config.CMD_CONFIGURE
  | .mapReadShuntVoltage => .cmd Config.CMD_READ_SHUNT_VOLTAGE
  | .mapReadBusVoltage => .cmd Config.CMD_READ_BUS_VOLTAGE
  | .mapReadPower => .cmd Config.CMD_READ_POWER
  | .mapReadCurrent => .cmd Config.CMD_READ_CURRENT
  | .mapCalibrate => .cmd Config.CMD_CALIBRATE
  | .mapReadAll => .cmd Config.CMD_READ_ALL
  | .mapUnknown cmd => .cmd cmd

/-- The bytes of a word, in the layout of `PortWord.ofBytes` (log 6). -/
def PortWord.toBytes : PortWord → List Byte
  | .ctl w => [dinField w, (opField w).setWidth Config.W]
  | .cmd c => [c]

/-! ### Words numbered as opcode_table.json numbers them -/

/-- `count` bytes of `w`, least significant first. -/
def littleEndian : Nat → Nat → List Byte
  | 0, _ => []
  | count + 1, w => BitVec.ofNat Config.W w :: littleEndian count (w / 2 ^ Config.W)

/-- The bytes of a table word of `nbits` bits, every bit above `nbits` zero; a row of at most 8 bits
is a command byte (log 6). -/
def tableBytes (nbits w : Nat) : List Byte :=
  littleEndian (max 1 ((nbits + 7) / 8)) (w % 2 ^ nbits)

/-- The instruction the decoder reads from a word numbered as opcode_table.json numbers it. -/
def decodeTableWord (nbits w : Nat) : Option Instr :=
  (decode (tableBytes nbits w)).toOption

/-! ### The opcode table -/

/-- The `format` column of opcode_table.json. -/
inductive WordFormat where
  | ctl10
  | cmd8
  deriving DecidableEq, Repr

/-- A row of opcode_table.json: a word of the format belongs to the row when its bits under `mask`
are `pattern` (the table's `match`). -/
structure TableRow where
  mnemonic : String
  format   : WordFormat
  pattern  : Nat
  mask     : Nat
  deriving DecidableEq, Repr

/-- opcode_table.json, in its order; the unknown row is last, with the lowest priority (R68). -/
def opcodeTable : List TableRow :=
  [⟨"NOP", .ctl10, 0x000, 0x300⟩,
   ⟨"INIT", .ctl10, 0x100, 0x300⟩,
   ⟨"UPD", .ctl10, 0x200, 0x300⟩,
   ⟨"INITUPD", .ctl10, 0x300, 0x300⟩,
   ⟨"MAP_CONFIGURE", .cmd8, 0x50, 0xFF⟩,
   ⟨"MAP_READSHUNTVOLTAGE", .cmd8, 0x51, 0xFF⟩,
   ⟨"MAP_READBUSVOLTAGE", .cmd8, 0x52, 0xFF⟩,
   ⟨"MAP_READPOWER", .cmd8, 0x53, 0xFF⟩,
   ⟨"MAP_READCURRENT", .cmd8, 0x54, 0xFF⟩,
   ⟨"MAP_CALIBRATE", .cmd8, 0x55, 0xFF⟩,
   ⟨"MAP_READALL", .cmd8, 0x56, 0xFF⟩,
   ⟨"MAP_UNKNOWN", .cmd8, 0x00, 0x00⟩]

/-- Does the word belong to the row, its priority apart? -/
def TableRow.matchesWord (r : TableRow) : PortWord → Bool
  | .ctl w => r.format == .ctl10 && w.toNat &&& r.mask == r.pattern
  | .cmd c => r.format == .cmd8 && c.toNat &&& r.mask == r.pattern

/-- The first row of the table, in priority order, that the word belongs to. -/
def tableLookup (w : PortWord) : Option TableRow := opcodeTable.find? (·.matchesWord w)

/-- The mnemonic of an instruction's row. -/
def Instr.mnemonic : Instr → String
  | .nop _ => "NOP"
  | .init _ => "INIT"
  | .upd _ => "UPD"
  | .initupd _ => "INITUPD"
  | .mapConfigure => "MAP_CONFIGURE"
  | .mapReadShuntVoltage => "MAP_READSHUNTVOLTAGE"
  | .mapReadBusVoltage => "MAP_READBUSVOLTAGE"
  | .mapReadPower => "MAP_READPOWER"
  | .mapReadCurrent => "MAP_READCURRENT"
  | .mapCalibrate => "MAP_CALIBRATE"
  | .mapReadAll => "MAP_READALL"
  | .mapUnknown _ => "MAP_UNKNOWN"

end Sys2Proof
end

