-- ==== Sys2Proof/Machine/State.lean ====
section
/-! DEFINITION. The state of the block, why a step could stop, and the state after reset. -/

namespace Sys2Proof.Machine

/-- What the outside presents in one step (10_state.md R29); `clk` is the step itself. -/
structure Inputs where
  /-- `rst`, active high. -/
  rst : Bool
  /-- `op[1:0]`. -/
  op  : OpCode
  /-- `din[7:0]`. -/
  din : Byte
  /-- `cmd[7:0]`. -/
  cmd : Byte
  deriving DecidableEq, Repr

/-- The output ports of the CRC unit (10_state.md R30). -/
structure CrcPorts where
  /-- `crc_out[7:0]`. -/
  crcOut  : Byte
  /-- `crc_zero`. -/
  crcZero : Bool
  deriving DecidableEq, Repr

/-- The output ports of the mapper (10_state.md R31). -/
structure MapPorts where
  /-- `reg_addr[7:0]`. -/
  regAddr : Byte
  /-- `dev_addr[7:0]`. -/
  devAddr : Byte
  /-- `known`. -/
  known   : Bool
  /-- `kind[1:0]`. -/
  kind    : BitVec 2
  /-- `snap_off[2:0]`. -/
  snapOff : BitVec 3
  deriving DecidableEq, Repr

/-- What the Register Bridge does with a command (41_mapper.md R103). -/
inductive Kind where
  | none
  | write
  | read1
  | readall
  deriving DecidableEq, Repr

/-- The state. `crc` is all the block stores (10_state.md R20, R26). The rest is the model's own: the
output ports as they stood in the most recent step (log 2), the inputs still to be presented and the
number of inputs drawn where none was listed (log 1). -/
structure State where
  /-- The CRC register, the running value (R20). -/
  crc      : Byte
  /-- `crc_out` and `crc_zero` in the most recent step (R23, R24). -/
  crcPorts : CrcPorts
  /-- The mapper's outputs in the most recent step (R28, R31). -/
  mapPorts : MapPorts
  /-- The inputs the caller presents in the coming steps, oldest first (R25, R29). -/
  pending  : List Inputs
  /-- How many steps have drawn a free input, because `pending` was empty. -/
  draws    : Nat
  deriving DecidableEq, Repr

/-- Why a step stops with a fault: never. The block raises no exception, trap or fault (60_exceptions.md
R120), so the type has no constructor, and that is exact (log 7). -/
inductive Fault
  deriving DecidableEq, Repr

/-- Why an instruction has no meaning. -/
inductive Refusal where
  /-- The instruction has no meaning in the model yet. Raised by no arm of `exec`: every row of the
  opcode table has its meaning. Safe. -/
  | notModelled (mnemonic : String)
  deriving DecidableEq, Repr

/-- The machine right after reset (10_state.md R21 and section 4): `crc = 0x00`, `crc_out = 0x00`,
`crc_zero = 1`. The mapper's outputs have no reset value; they stand as for `cmd = 0x00` (DESIGN CHOICE,
log 3). No input is listed (log 5). -/
def State.reset : State where
  crc      := Config.CRC_INIT
  crcPorts := ⟨Config.CRC_INIT, Config.CRC_INIT == 0x00⟩
  mapPorts := ⟨Config.CMD_OMITTED &&& Config.RMASK, Config.DEV_ADDR, false, 0, 0⟩
  pending  := []
  draws    := 0

end Sys2Proof.Machine
end

