-- ==== Sys2Proof/Machine/Operands.lean ====
section
/-! DEFINITION. The operand forms: the register-select field of the command byte and the control word
of an input sample. `din` is used exactly as it stands (30_encoding.md R62) and has no form of its own. -/

namespace Sys2Proof.Machine

/-- The field `rsel = cmd[2:0]` (30_encoding.md R64). -/
def rsel (cmd : Byte) : BitVec 3 := cmd.extractLsb' 0 3

/-- `reg_addr = cmd & 0x07`, whatever the high bits hold (R66, 41_mapper.md R100). -/
def registerAddress (cmd : Byte) : Byte := cmd &&& Config.RMASK

/-- The control word `{op, din}` of an input sample (30_encoding.md R60). -/
def Inputs.ctl (inp : Inputs) : ControlWord := controlWord inp.op inp.din

end Sys2Proof.Machine
end

