-- ==== Sys2Proof/Machine/Flags.lean ====
section
/-! DEFINITION. The flags: `crc_zero` of the CRC unit, and `known`, `kind` and `snap_off` of the
mapper (10_state.md R24; 41_mapper.md R102, R103, R104). -/

namespace Sys2Proof.Machine

/-- `crc_zero = (crc == 0x00)` (10_state.md R24). -/
def zeroFlag (crc : Byte) : Bool := crc == 0x00

/-- `known = (0x50 <= cmd <= 0x56)` (41_mapper.md R102). -/
def knownFlag (cmd : Byte) : Bool :=
  decide (Config.CMD_CONFIGURE ≤ cmd) && decide (cmd ≤ Config.CMD_READ_ALL)

/-- The class of a command byte (R103). -/
def kindOf (cmd : Byte) : Kind :=
  if cmd ∈ [Config.CMD_CONFIGURE, Config.CMD_CALIBRATE] then .write
  else if cmd ∈ [Config.CMD_READ_SHUNT_VOLTAGE, Config.CMD_READ_BUS_VOLTAGE,
      Config.CMD_READ_POWER, Config.CMD_READ_CURRENT] then .read1
  else if cmd = Config.CMD_READ_ALL then .readall
  else .none

/-- The code of a class on the port `kind[1:0]` (R103). -/
def kindCode : Kind → BitVec 2
  | .none => 0
  | .write => 1
  | .read1 => 2
  | .readall => 3

/-- `snap_off = (kind == READ1) ? 2 * (reg_addr - 1) : 0`, 3 bits (R104). -/
def snapshotOffset (cmd : Byte) : BitVec 3 :=
  if kindOf cmd = .read1 then (2 * (registerAddress cmd - 1)).setWidth 3 else 0

end Sys2Proof.Machine
end

