-- ==== Sys2Proof/Machine/Ops.lean ====
section
/-! DEFINITION. The named operations over State: the CRC unit's ports and commit, the mapper's ports,
the reset, the sampling of inputs. Taking an exception and returning from one are not among them: the
block has no trap entry and no return (60_exceptions.md R122). -/

namespace Sys2Proof.Machine

/-- The output `crc_out` in the coming step: the register (10_state.md R23). -/
def State.crcOut (s : State) : Byte := s.crc

/-- The output `crc_zero` in the coming step (10_state.md R24). -/
def State.crcZero (s : State) : Bool := zeroFlag s.crc

/-- A step of the CRC unit: the ports show the start-of-step value, and `v` is committed at the end of
the step (00_scope.md R9, R10; 10_state.md R23). The one operation that writes `crc`. -/
def State.commit (s : State) (v : Byte) : State :=
  { s with crcPorts := ⟨s.crcOut, s.crcZero⟩, crc := v }

/-- A look-up of the mapper: its five outputs take the values `p` (10_state.md R28, R31). -/
def State.driveMapper (s : State) (p : MapPorts) : State := { s with mapPorts := p }

/-- The CRC unit in a step with `rst = 1`: it commits the initial value, `op` and `din` ignored
(70_reset_and_hazards.md R140). -/
def resetCrc (s : State) : Host.Outcome State Fault Refusal := .next (s.commit Config.CRC_INIT)

/-- The machine after the `n`-th power-up, before the first reset: `crc` holds a free value, which the
CRC unit's outputs show (R142, U15; log 4). -/
def State.powerUp (n : Nat) : State :=
  { State.reset with
    crc := Config.powerUpCrc n
    crcPorts := ⟨Config.powerUpCrc n, zeroFlag (Config.powerUpCrc n)⟩ }

/-- The inputs of the `n`-th step for which none is listed: free values (log 1). -/
def drawnInputs (n : Nat) : Inputs :=
  ⟨Config.callerRst n, Config.callerOp n, Config.callerDin n, Config.callerCmd n⟩

/-- The inputs the coming step samples (00_scope.md R10). -/
def State.sampled (s : State) : Inputs :=
  match s.pending with
  | inp :: _ => inp
  | [] => drawnInputs s.draws

/-- The state once the coming step has sampled its inputs. -/
def State.afterSample (s : State) : State :=
  match s.pending with
  | _ :: rest => { s with pending := rest }
  | [] => { s with draws := s.draws + 1 }

/-- The caller presents `ins` in the next steps, before what is listed already (10_state.md R25). -/
def State.present (s : State) (ins : List Inputs) : State := { s with pending := ins ++ s.pending }

/-- One outcome after another: a stop stays a stop. -/
def andThen (o : Host.Outcome State Fault Refusal) (f : State → Host.Outcome State Fault Refusal) :
    Host.Outcome State Fault Refusal :=
  match o with
  | .next s => f s
  | .fault r => .fault r
  | .refused r => .refused r

end Sys2Proof.Machine
end

