-- ==== Sys2Proof/Machine/Crc.lean ====
section
/-! DEFINITION. The meanings of the four operations of the CRC unit (40_crc.md R84 to R87). -/

namespace Sys2Proof.Machine

/-- NOP: `crc <- crc` (R84). -/
def execNop (s : State) : Host.Outcome State Fault Refusal := .next (s.commit s.crc)

/-- INIT: `crc <- 0x00` (R85). -/
def execInit (s : State) : Host.Outcome State Fault Refusal := .next (s.commit Config.CRC_INIT)

/-- UPD: `crc <- upd(crc, din)` (R86). -/
def execUpd (din : Byte) (s : State) : Host.Outcome State Fault Refusal :=
  .next (s.commit (upd s.crc din))

/-- INITUPD: `crc <- upd(0x00, din)` (R87). -/
def execInitupd (din : Byte) (s : State) : Host.Outcome State Fault Refusal :=
  .next (s.commit (upd Config.CRC_INIT din))

end Sys2Proof.Machine
end

