-- ==== Sys2Proof/Machine/Mapper.lean ====
section
/-! DEFINITION. The mapper: its outputs for a command byte (41_mapper.md R100 to R104), its gathered
form (R113), and the meanings of the eight rows of the table (R105 to R112). -/

namespace Sys2Proof.Machine

/-- The five outputs for a command byte, output by output (R100 to R104). -/
def mapOutputs (cmd : Byte) : MapPorts where
  regAddr := registerAddress cmd
  devAddr := Config.DEV_ADDR
  known   := knownFlag cmd
  kind    := kindCode (kindOf cmd)
  snapOff := snapshotOffset cmd

/-- The mapper's function as R113 gathers it, case by case over the command byte. -/
def mapGathered (cmd : Byte) : MapPorts :=
  if cmd = Config.CMD_CONFIGURE ∨ cmd = Config.CMD_CALIBRATE then
    ⟨(rsel cmd).setWidth Config.W, Config.DEV_ADDR, true, 1, 0⟩
  else if cmd = Config.CMD_READ_SHUNT_VOLTAGE ∨ cmd = Config.CMD_READ_BUS_VOLTAGE ∨
      cmd = Config.CMD_READ_POWER ∨ cmd = Config.CMD_READ_CURRENT then
    ⟨(rsel cmd).setWidth Config.W, Config.DEV_ADDR, true, 2, ((rsel cmd - 1) ++ 0#1).setWidth 3⟩
  else if cmd = Config.CMD_READ_ALL then
    ⟨(rsel cmd).setWidth Config.W, Config.DEV_ADDR, true, 3, 0⟩
  else ⟨(rsel cmd).setWidth Config.W, Config.DEV_ADDR, false, 0, 0⟩

/-- Configure (R105). -/
def execMapConfigure (s : State) : Host.Outcome State Fault Refusal :=
  .next (s.driveMapper (mapOutputs Config.CMD_CONFIGURE))

/-- ReadShuntVoltage (R106). -/
def execMapReadShuntVoltage (s : State) : Host.Outcome State Fault Refusal :=
  .next (s.driveMapper (mapOutputs Config.CMD_READ_SHUNT_VOLTAGE))

/-- ReadBusVoltage (R107). -/
def execMapReadBusVoltage (s : State) : Host.Outcome State Fault Refusal :=
  .next (s.driveMapper (mapOutputs Config.CMD_READ_BUS_VOLTAGE))

/-- ReadPower (R108). -/
def execMapReadPower (s : State) : Host.Outcome State Fault Refusal :=
  .next (s.driveMapper (mapOutputs Config.CMD_READ_POWER))

/-- ReadCurrent (R109). -/
def execMapReadCurrent (s : State) : Host.Outcome State Fault Refusal :=
  .next (s.driveMapper (mapOutputs Config.CMD_READ_CURRENT))

/-- Calibrate (R110). -/
def execMapCalibrate (s : State) : Host.Outcome State Fault Refusal :=
  .next (s.driveMapper (mapOutputs Config.CMD_CALIBRATE))

/-- ReadAll (R111). The block drives the mask result 6; the four sub-reads are look-ups of their own,
which the caller presents. -/
def execMapReadAll (s : State) : Host.Outcome State Fault Refusal :=
  .next (s.driveMapper (mapOutputs Config.CMD_READ_ALL))

/-- An unknown command byte: the register address is still computed, `known = 0`, `kind` NONE,
`snap_off = 0` (R112). -/
def execMapUnknown (cmd : Byte) (s : State) : Host.Outcome State Fault Refusal :=
  .next (s.driveMapper (mapOutputs cmd))

end Sys2Proof.Machine
end

