-- ==== Sys2Proof/Machine/Dispatch.lean ====
section
/-! DEFINITION. The dispatch: one arm per instruction. -/

namespace Sys2Proof.Machine

def exec (i : Instr) (s : State) : Host.Outcome State Fault Refusal :=
  match i with
  -- CRC unit, 40_crc.md
  | .nop _ => Sys2Proof.Machine.execNop s
  | .init _ => Sys2Proof.Machine.execInit s
  | .upd din => Sys2Proof.Machine.execUpd din s
  | .initupd din => Sys2Proof.Machine.execInitupd din s
  -- mapper, 41_mapper.md
  | .mapConfigure => Sys2Proof.Machine.execMapConfigure s
  | .mapReadShuntVoltage => Sys2Proof.Machine.execMapReadShuntVoltage s
  | .mapReadBusVoltage => Sys2Proof.Machine.execMapReadBusVoltage s
  | .mapReadPower => Sys2Proof.Machine.execMapReadPower s
  | .mapReadCurrent => Sys2Proof.Machine.execMapReadCurrent s
  | .mapCalibrate => Sys2Proof.Machine.execMapCalibrate s
  | .mapReadAll => Sys2Proof.Machine.execMapReadAll s
  | .mapUnknown cmd => Sys2Proof.Machine.execMapUnknown cmd s

end Sys2Proof.Machine
end

