-- ==== Sys2Proof/Machine/Units.lean ====
section
/-! DEFINITION. What each of the two units does in a step, and how a word comes to be presented. -/

namespace Sys2Proof.Machine

/-- The CRC unit in one step: the reset wins over the operation; otherwise the operation of the
control word is executed (70_reset_and_hazards.md R140, 60_exceptions.md R124). -/
def crcUnit (inp : Inputs) (s : State) : Host.Outcome State Fault Refusal :=
  if inp.rst then resetCrc s else exec (decodeCtl inp.ctl) s

/-- The mapper in one step: the look-up of the command byte, in a reset step as in any other (R143). -/
def mapperUnit (inp : Inputs) (s : State) : Host.Outcome State Fault Refusal :=
  exec (decodeCmd inp.cmd) s

/-- Both units in one step, each on its own part of the state (60_exceptions.md R124; log 8). -/
def runUnits (inp : Inputs) (s : State) : Host.Outcome State Fault Refusal :=
  andThen (crcUnit inp s) (mapperUnit inp)

/-- The inputs of a step that presents one word, as the assembler writes it: a control word with
`cmd = 0x00`, a command byte beside a NOP (30_encoding.md R73, R74; log 5). -/
def Inputs.ofPortWord : PortWord → Inputs
  | .ctl w => ⟨false, opField w, dinField w, Config.CMD_OMITTED⟩
  | .cmd c => ⟨false, Config.OP_NOP, Config.DIN_OMITTED, c⟩

/-- The words numbered as opcode_table.json numbers them, as inputs to present; none where the word
fits neither port (log 6). -/
def inputsOfTableWord (nbits w : Nat) : List Inputs :=
  match PortWord.ofBytes (tableBytes nbits w) with
  | .ok pw => [Inputs.ofPortWord pw]
  | .error _ => []

end Sys2Proof.Machine
end

