-- ==== Sys2Proof/Machine/Step.lean ====
section
/-! DEFINITION. One step of the block (00_scope.md R10). -/

namespace Sys2Proof.Machine

/-- One active clock edge: sample the inputs, drive the outputs from them and the start-of-step `crc`,
commit the next `crc` (00_scope.md R10). -/
def step (s : State) : Host.Outcome State Fault Refusal := runUnits s.sampled s.afterSample

/-- The state whose very next step presents the given table word; everything listed already is
presented after it (log 5). -/
def State.withFetchWord (s : State) (nbits w : Nat) : State := s.present (inputsOfTableWord nbits w)

end Sys2Proof.Machine
end

