-- ==== Sys2Proof/Machine/AddressSpace.lean ====
section
/-! DEFINITION. The two address spaces the mapper's outputs point into (in scope by 00_scope.md R3):
the sensor's registers and the Register Snapshot. Both belong to other components; here is their
layout, not their contents (20_memory.md R40 to R48). -/

namespace Sys2Proof.Machine

/-- The registers of the sensor, named as the source names them (20_memory.md R42). -/
inductive SensorRegister where
  | config
  | shuntVoltage
  | busVoltage
  | power
  | current
  | calibration
  /-- Register 6, which the source does not name (G5). -/
  | unnamed6
  /-- Register 7, which the source does not name (G5). -/
  | unnamed7
  deriving DecidableEq, Repr

/-- The register a register number selects (R41, R42). -/
def sensorRegister (n : BitVec 3) : SensorRegister :=
  match n with
  | 0#3 => .config
  | 1#3 => .shuntVoltage
  | 2#3 => .busVoltage
  | 3#3 => .power
  | 4#3 => .current
  | 5#3 => .calibration
  | 6#3 => .unnamed6
  | _ => .unnamed7

/-- Whether the source names the register; a bus model refuses an access to any other (D33, U11). -/
def SensorRegister.named : SensorRegister → Bool
  | .unnamed6 | .unnamed7 => false
  | _ => true

/-- Bytes in every register access (R43). -/
def REGISTER_BYTES : Nat := 2

/-- Bytes in the Register Snapshot (R45). -/
abbrev SNAPSHOT_BYTES : Nat := 8

/-- Which byte of a 16-bit quantity (R44). -/
inductive ByteHalf where
  | high
  | low
  deriving DecidableEq, Repr

/-- What the Register Snapshot holds at each of its byte offsets (R45); big-endian in each slot (R46). -/
def snapshotContents (off : BitVec 3) : SensorRegister × ByteHalf :=
  match off with
  | 0#3 => (.shuntVoltage, .high)
  | 1#3 => (.shuntVoltage, .low)
  | 2#3 => (.busVoltage, .high)
  | 3#3 => (.busVoltage, .low)
  | 4#3 => (.power, .high)
  | 5#3 => (.power, .low)
  | 6#3 => (.current, .high)
  | _ => (.current, .low)

/-- The two bytes of a quantity in the order the sensor sends them, high byte first (R44, R46). -/
def bigEndian (q : BitVec 16) : Byte × Byte := (q.extractLsb' Config.W Config.W, q.extractLsb' 0 Config.W)

/-- The quantity two bytes stand for (R44). -/
def ofBigEndian (bytes : Byte × Byte) : BitVec 16 := bytes.1 ++ bytes.2

/-- The Register Snapshot as a value, in offset order (R45). The block holds none (R47). -/
abbrev Snapshot := Vector Byte SNAPSHOT_BYTES

/-- Overwrite in place the 2-byte slot at `off`, the byte sent first at the lower offset (R46, R47). -/
def Snapshot.writeSlot (snap : Snapshot) (off : BitVec 3) (bytes : Byte × Byte) : Snapshot :=
  (snap.setIfInBounds off.toNat bytes.1).setIfInBounds (off.toNat + 1) bytes.2

/-- The two bytes of the slot at `off`. -/
def Snapshot.slot (snap : Snapshot) (off : BitVec 3) : List Byte :=
  (snap.toList.drop off.toNat).take REGISTER_BYTES

end Sys2Proof.Machine
end

