-- ==== Sys2Proof/Machine/Program.lean ====
section
/-! DEFINITION. Programs: the assembler lines and the pseudo-instructions of 30_encoding.md R73, R74.
A program is the sequence of inputs a caller presents (10_state.md R25). -/

namespace Sys2Proof.Machine

/-- A line of the assembler, its `cmd` comment apart (R73). -/
inductive Line where
  | nop
  | init
  | upd (din : Byte)
  | initupd (din : Byte)
  /-- The reset input. -/
  | rst
  deriving DecidableEq, Repr

/-- The step inputs of a line (R73); `op` and `din` of RST are ignored by the block. -/
def Line.inputsWith (cmd : Byte) : Line → Inputs
  | .nop => ⟨false, Config.OP_NOP, Config.DIN_OMITTED, cmd⟩
  | .init => ⟨false, Config.OP_INIT, Config.DIN_OMITTED, cmd⟩
  | .upd din => ⟨false, Config.OP_UPD, din, cmd⟩
  | .initupd din => ⟨false, Config.OP_INITUPD, din, cmd⟩
  | .rst => ⟨true, Config.OP_NOP, Config.DIN_OMITTED, cmd⟩

/-- The step inputs of a line without a `cmd` comment (R73). -/
def Line.inputs (l : Line) : Inputs := l.inputsWith Config.CMD_OMITTED

/-- The lines that feed `bs` into the running value (R86). -/
def feedLines (bs : List Byte) : List Line := bs.map .upd

/-- The expansion of `CRC b0, ..., bk`, the empty sequence included (R74). -/
def crcLines : List Byte → List Line
  | [] => [.init]
  | b :: bs => .initupd b :: feedLines bs

/-- The inputs of a list of lines. -/
def assemble (ls : List Line) : List Inputs := ls.map Line.inputs

/-- The expansion of `MAP 0xHH` (R74). -/
def mapLines (cmd : Byte) : List Inputs := [Line.inputsWith cmd .nop]

/-- The operation of the CRC unit an input sample presents: none in a reset step. -/
def Inputs.operation (inp : Inputs) : Option Instr :=
  if inp.rst then none else some (decodeCtl inp.ctl)

/-- Whether an input sample is a NOP step (R84): no reset, `op = 00`, any `din`, any `cmd`. -/
def Inputs.isNop (inp : Inputs) : Bool := !inp.rst && inp.op == Config.OP_NOP

end Sys2Proof.Machine
end

