-- ==== Sys2Proof/Machine/Caller.lean ====
section
/-! DEFINITION. CONTEXT, not part of the machine: the rules the spec gives about the block's caller, as
pure functions of a frame, of what the bus answers and of a snapshot (30_encoding.md R69 to R72;
60_exceptions.md R125 to R127; 20_memory.md R47, R48; 41_mapper.md R111). State holds none of it and
`step` uses none of it: the surrounding software is out of scope (00_scope.md R4; log 13). -/

namespace Sys2Proof.Machine

/-! ### Frames -/

/-- The host frame: `FRAME_LEN` bytes in offset order, "no variable length" (R69). -/
structure Frame where
  cells : Vector Byte Config.FRAME_LEN
  deriving DecidableEq, Repr

/-- The frame of the six fields, in the order of R69's table. -/
def Frame.ofFields (header1 header2 command param1 param2 checksum : Byte) : Frame :=
  ⟨#v[header1, header2, command, param1, param2, checksum]⟩

/-- A received byte sequence as a frame: exactly `FRAME_LEN` bytes (R69). -/
def Frame.ofBytes (bytes : List Byte) : Option Frame :=
  if h : bytes.length = Config.FRAME_LEN then some ⟨⟨bytes.toArray, h⟩⟩ else none

def Frame.header1 (f : Frame) : Byte := f.cells[0]
def Frame.header2 (f : Frame) : Byte := f.cells[1]
def Frame.command (f : Frame) : Byte := f.cells[2]
def Frame.param1 (f : Frame) : Byte := f.cells[3]
def Frame.param2 (f : Frame) : Byte := f.cells[4]
/-- The last byte (R69, R70). -/
def Frame.checksum (f : Frame) : Byte := f.cells[Config.FRAME_LEN - 1]

/-- The frame in offset order (R69). -/
def Frame.bytes (f : Frame) : List Byte := f.cells.toList

/-- The bytes the checksum covers: every byte but the checksum, which does not cover itself (R70). -/
def Frame.covered (f : Frame) : List Byte := f.bytes.take (Config.FRAME_LEN - 1)

/-- The expansion of `CHECK f0, ..., f5` (R74). -/
def checkLines (f : Frame) : List Line := crcLines f.bytes

/-- The validator's answer (60_exceptions.md R125). -/
inductive Verdict where
  | ok
  | headerMismatch
  | checksumMismatch
  deriving DecidableEq, Repr

/-- The validator: the header test first, then the checksum (R125, R71). -/
def validate (f : Frame) : Verdict :=
  if f.header1 ≠ Config.SENTINEL ∨ f.header2 ≠ Config.SENTINEL then .headerMismatch
  else if compute f.covered ≠ f.checksum then .checksumMismatch
  else .ok

/-- The error reply; none for a valid frame (R126). -/
def errorReply : Verdict → List Byte
  | .ok => []
  | .headerMismatch =>
    [Config.ERROR_MARKER, Config.ERROR_MARKER, Config.ERROR_MARKER, Config.ERR_HEADER]
  | .checksumMismatch =>
    [Config.ERROR_MARKER, Config.ERROR_MARKER, Config.ERROR_MARKER, Config.ERR_CHECKSUM]

/-! ### The bus, as an argument -/

/-- In which order the two parameter bytes go on the bus: open (D30, U9). -/
inductive WriteByteOrder where
  | p1First
  | p2First
  deriving DecidableEq, Repr

/-- The two data bytes of a register write (R44, D30). -/
def writeData (order : WriteByteOrder) (p1 p2 : Byte) : Byte × Byte :=
  match order with
  | .p1First => (p1, p2)
  | .p2First => (p2, p1)

/-- What a bus transaction comes to: an answer, a wedged bus that never returns (R132, U4), or a
register the source does not name (D33, U11). -/
inductive BusResult (α : Type) where
  | answered (a : α)
  | hung
  | refused (r : SensorRegister)
  deriving DecidableEq, Repr

/-- What a register write reports (R72). -/
inductive WriteStatus where
  | success
  | failure
  deriving DecidableEq, Repr

/-- The `writeStatus` byte of a reply: 0 for success, 1 for failure (R72). -/
def writeStatusByte : WriteStatus → Byte
  | .success => Config.WRITE_SUCCESS
  | .failure => Config.WRITE_FAILURE

/-- The bus with the sensor behind it, an argument of every caller function: what a write of two bytes
reports and what a read of two bytes brings, each none if the bus is wedged. A failed read brings any
bytes (U1). -/
structure Bus where
  write : (devAddr regAddr : Byte) → Byte × Byte → Option WriteStatus
  read  : (devAddr regAddr : Byte) → Option (Byte × Byte)

/-- An answer of the bus, refused for a register the source does not name (D33). -/
def busAccess {α : Type} (regAddr : Byte) (answer : Option α) : BusResult α :=
  let r := sensorRegister (rsel regAddr)
  if r.named then
    match answer with
    | some a => .answered a
    | none => .hung
  else .refused r

/-! ### The dispatcher -/

/-- The command bytes ReadAll presents to the mapper, in order (R111, D14). -/
def subReads : List Byte :=
  [Config.CMD_READ_SHUNT_VOLTAGE, Config.CMD_READ_BUS_VOLTAGE,
   Config.CMD_READ_POWER, Config.CMD_READ_CURRENT]

/-- One register read into its slot of the snapshot, addressed by the mapper's outputs for `cmd`
(R47, R104). -/
def readRegister (bus : Bus) (cmd : Byte) (snap : Snapshot) : BusResult Snapshot :=
  let m := mapOutputs cmd
  match busAccess m.regAddr (bus.read m.devAddr m.regAddr) with
  | .answered bytes => .answered (snap.writeSlot m.snapOff bytes)
  | .hung => .hung
  | .refused r => .refused r

/-- Register reads one after another; the first that does not answer ends them. -/
def readRegisters (bus : Bus) : List Byte → Snapshot → BusResult Snapshot
  | [], snap => .answered snap
  | cmd :: cmds, snap =>
    match readRegister bus cmd snap with
    | .answered snap' => readRegisters bus cmds snap'
    | .hung => .hung
    | .refused r => .refused r

/-- ReadAll: four register reads in the fixed order into consecutive slots (R48, R111). -/
def readAll (bus : Bus) (snap : Snapshot) : BusResult Snapshot := readRegisters bus subReads snap

/-- The two header bytes and the command echo every reply begins with (R72). -/
def replyHeader (cmd : Byte) : List Byte := [Config.SENTINEL, Config.SENTINEL, cmd]

/-- What the caller ends with: the reply bytes and the snapshot. -/
structure Handled where
  reply    : List Byte
  snapshot : Snapshot
  deriving DecidableEq, Repr

/-- The reply of a write command: Configure sends its header twice, Calibrate once (R72,
90_conflicts.md C6). -/
def writeReply (cmd : Byte) (status : WriteStatus) : List Byte :=
  if cmd = Config.CMD_CONFIGURE then replyHeader cmd ++ replyHeader cmd ++ [writeStatusByte status]
  else replyHeader cmd ++ [writeStatusByte status]

/-- The dispatcher for a valid frame, driven by the mapper's class of its command byte: a write, one
read, all four reads, or no reply at all (41_mapper.md R103, R112; 30_encoding.md R67, R72). -/
def dispatch (order : WriteByteOrder) (bus : Bus) (f : Frame) (snap : Snapshot) : BusResult Handled :=
  let m := mapOutputs f.command
  match kindOf f.command with
  | .none => .answered ⟨[], snap⟩
  | .write =>
    match busAccess m.regAddr (bus.write m.devAddr m.regAddr (writeData order f.param1 f.param2)) with
    | .answered status => .answered ⟨writeReply f.command status, snap⟩
    | .hung => .hung
    | .refused r => .refused r
  | .read1 =>
    match readRegister bus f.command snap with
    | .answered snap' => .answered ⟨replyHeader f.command ++ snap'.slot m.snapOff, snap'⟩
    | .hung => .hung
    | .refused r => .refused r
  | .readall =>
    match readAll bus snap with
    | .answered snap' => .answered ⟨replyHeader f.command ++ snap'.toList, snap'⟩
    | .hung => .hung
    | .refused r => .refused r

/-- What a frame comes to: an error reply with the snapshot untouched, or the dispatcher's answer
(R125, R126, 95_test_vectors.md S-3). -/
def handleFrame (order : WriteByteOrder) (bus : Bus) (f : Frame) (snap : Snapshot) :
    BusResult Handled :=
  match validate f with
  | .ok => dispatch order bus f snap
  | v => .answered ⟨errorReply v, snap⟩

end Sys2Proof.Machine
end

