-- ==== Sys2Proof/Safety.lean ====
section
/-! DEFINITION. Runs, what counts as a safe one, and what every output of the block always satisfies. -/

namespace Sys2Proof.Machine

/-- `n` steps, stopping at the first fault or refusal. -/
def runSteps : Nat → State → Host.Outcome State Fault Refusal
  | 0, s => .next s
  | n + 1, s => andThen (step s) (runSteps n)

/-- The steps in which the caller presents `ins`, from `s`. -/
def runInputs (ins : List Inputs) (s : State) : Host.Outcome State Fault Refusal :=
  runSteps ins.length (s.present ins)

/-- A run is safe when it neither faults, nor is refused (10_state.md R32, 60_exceptions.md R120). -/
def CompletesIn (n : Nat) (s : State) : Prop := ∃ t, runSteps n s = .next t

/-- What the CRC unit's ports show together (10_state.md R24). -/
abbrev CrcPorts.Legal (p : CrcPorts) : Prop := p.crcZero = true ↔ p.crcOut = 0x00

/-- What the mapper's ports show together, for no command byte in particular: three bits of register
address, the fixed device address, a class exactly where the command is known, an offset that is the
register's slot for a single read of registers 1 to 4 and zero otherwise (41_mapper.md R100 to R104). -/
structure MapPorts.Legal (p : MapPorts) : Prop where
  regAddr_small   : p.regAddr.toNat < 8
  devAddr_fixed   : p.devAddr = Config.DEV_ADDR
  known_iff_class : p.known = true ↔ p.kind ≠ 0
  single_read     : p.kind = 2 → 1 ≤ p.regAddr.toNat ∧ p.regAddr.toNat ≤ 4 ∧
    p.snapOff.toNat = 2 * (p.regAddr.toNat - 1)
  no_slot         : p.kind ≠ 2 → p.snapOff = 0
  write_register  : p.kind = 1 → p.regAddr = 0 ∨ p.regAddr = 5
  readall_masked  : p.kind = 3 → p.regAddr = 6

/-- The invariant of the output ports. -/
structure State.PortsLegal (s : State) : Prop where
  crc    : s.crcPorts.Legal
  mapper : s.mapPorts.Legal

/-- The operations of the CRC unit that `ins` presents, in order, NOPs left out, no step a reset. -/
abbrev PresentsOperations (ins : List Inputs) (ops : List Instr) : Prop :=
  (ins.filter (fun inp => !inp.isNop)).map Inputs.operation = ops.map some

/-- How many bits of a byte are set. -/
def popCount (b : Byte) : Nat := ((List.range Config.W).filter b.getLsbD).length

/-- How many bits of a byte sequence are set: the weight of an error pattern (40_crc.md R92). -/
def weight (bs : List Byte) : Nat := (bs.map popCount).sum

/-- The frame with the bits of the error pattern `e` flipped (R92). -/
def Frame.flip (f e : Frame) : Frame := ⟨f.cells.zipWith (· ^^^ ·) e.cells⟩

/-- The frame carries its correct checksum (30_encoding.md R70). -/
abbrev Frame.checksumCorrect (f : Frame) : Prop := compute f.covered = f.checksum

end Sys2Proof.Machine
end

