-- ==== Sys2Proof/Certificates/Slice0/Obligations.lean ====
section
/-! DEFINITION. The statements for the provers. Each docstring names the rule of the spec it
formalises; a clause that rests on a choice of the model says so and names the log entry. -/

open Sys2Proof Sys2Proof.Machine

/-! ### Reset, power-up, the step -/

/-- R21: `crc = 0x00` after reset, the initial value, with `crc_out` and `crc_zero` as section 4 of
10_state.md gives them, and a message may start straight after reset without an INIT. -/
def Obligations.ResetValueStartsAMessage : Prop :=
  State.reset.crc = 0x00 ∧ State.reset.crc = Config.CRC_INIT ∧
  State.reset.crcOut = 0x00 ∧ State.reset.crcZero = true ∧ State.reset.crcPorts = ⟨0x00, true⟩ ∧
  ∀ bs, ∃ t, runInputs (assemble (feedLines bs)) State.reset = .next t ∧ t.crc = compute bs

/-- R140: a step with `rst = 1` commits `0x00` whatever `op` and `din` are; a reset held for several
steps keeps `crc` at `0x00` after each of them; the mapper is not affected by `rst`. -/
def Obligations.ResetInputWins : Prop :=
  (∀ (s : State) op din cmd, step (s.present [⟨true, op, din, cmd⟩]) =
    .next { s with
      crc := 0x00, crcPorts := ⟨s.crc, s.crc == 0x00⟩, mapPorts := mapOutputs cmd }) ∧
  (∀ (s : State) (ins : List Inputs), ins ≠ [] → (∀ inp ∈ ins, inp.rst = true) →
    ∃ t, runInputs ins s = .next t ∧ t.crc = 0x00) ∧
  (∀ (s : State) rst rst' op din cmd, ∃ t u,
    step (s.present [⟨rst, op, din, cmd⟩]) = .next t ∧
    step (s.present [⟨rst', op, din, cmd⟩]) = .next u ∧ t.mapPorts = u.mapPorts)

/-- R88: the value a step commits is the next-state function, written out case by case. -/
def Obligations.StepCommitsNextCrc : Prop :=
  ∀ (s : State) rst op din cmd, ∃ t, step (s.present [⟨rst, op, din, cmd⟩]) = .next t ∧
    (rst = true → t.crc = 0x00) ∧
    (rst = false ∧ op = 0b00 → t.crc = s.crc) ∧
    (rst = false ∧ op = 0b01 → t.crc = 0x00) ∧
    (rst = false ∧ op = 0b10 → t.crc = T (s.crc ^^^ din)) ∧
    (rst = false ∧ op = 0b11 → t.crc = T din)

/-- R32: for every input combination the step gives one next state and every output. -/
def Obligations.EveryInputCombinationIsLegal : Prop :=
  ∀ (s : State) rst op din cmd, step (s.present [⟨rst, op, din, cmd⟩]) =
    .next { s with
      crc := nextCrc rst op din s.crc
      crcPorts := ⟨s.crc, s.crc == 0x00⟩
      mapPorts := mapGathered cmd }

/-- From R120 and R132: no run of any length faults, is refused or stalls, from any state, with inputs
listed or drawn. -/
def Obligations.EveryRunCompletes : Prop := ∀ (n : Nat) (s : State), CompletesIn n s

/-- R23, R144: in a step `crc_out` and `crc_zero` show the value of `crc` at its start; the result of a
step is seen in the next one; the mapper's outputs are those of the step's own `cmd`. With R144's
example. -/
def Obligations.OutputsShowTheStartOfTheStep : Prop :=
  (∀ (s : State) (inp inp' : Inputs), s.crcOut = s.crc ∧
    ∃ t u, step (s.present [inp]) = .next t ∧ step (t.present [inp']) = .next u ∧
      t.crcPorts.crcOut = s.crc ∧ t.crcPorts.crcZero = (s.crc == 0x00) ∧
      u.crcPorts.crcOut = t.crc ∧ u.crcPorts.crcZero = (t.crc == 0x00) ∧
      t.mapPorts = mapGathered inp.cmd) ∧
  ∀ s : State, ∃ t u v, step (s.present [Line.inputs (.initupd 0x23)]) = .next t ∧
    step (t.present [Line.inputs (.upd 0x23)]) = .next u ∧
    step (u.present [Line.inputs .nop]) = .next v ∧
    u.crcPorts.crcOut = 0xE9 ∧ v.crcPorts.crcOut = 0x78

/-- From R24, R26 and R28: `crc_zero` is `crc == 0x00`, is 1 at reset and changes exactly when `crc`
changes between zero and non-zero. The last clause, that no port value kept in State affects a step, is
about the model's own choice to keep them there (log 2). -/
def Obligations.ZeroFlagFollowsCrc : Prop :=
  State.reset.crcZero = true ∧
  (∀ s : State, s.crcZero = true ↔ s.crc = 0x00) ∧
  (∀ s t : State, step s = .next t →
    t.crcPorts.crcZero = s.crcZero ∧ (t.crcZero ≠ s.crcZero ↔ ¬ (t.crc = 0x00 ↔ s.crc = 0x00))) ∧
  ∀ (s : State) p q, step { s with crcPorts := p, mapPorts := q } = step s

/-- From R142 and R148: after any power-up, whatever the free value `crc` holds (log 4), a reset
followed by the bytes, or the bytes begun with INIT or INITUPD, gives the checksum. -/
def Obligations.BootFromAnyPowerUpValue : Prop :=
  ∀ (n : Nat) (op : OpCode) (din cmd : Byte) (bs : List Byte), ∃ t u v,
    runInputs (⟨true, op, din, cmd⟩ :: assemble (feedLines bs)) (State.powerUp n) = .next t ∧
    runInputs (assemble (.init :: feedLines bs)) (State.powerUp n) = .next u ∧
    runInputs (assemble (crcLines bs)) (State.powerUp n) = .next v ∧
    t.crc = compute bs ∧ u.crc = compute bs ∧ v.crc = compute bs

/-- A step runs the decoded instructions of the inputs it samples: the CRC unit's (or the reset) and
then the mapper's. That one step runs two is R10 and R124 (log 8). -/
def Obligations.StepRunsTheDecodedInstructions : Prop :=
  (∀ (s : State) (i j : Instr) (op : OpCode) (din cmd : Byte),
    decodeCtl (controlWord op din) = i → decodeCmd cmd = j →
    step (s.present [⟨false, op, din, cmd⟩]) = andThen (exec i s) (exec j)) ∧
  ∀ s : State, step s =
    andThen (if s.sampled.rst then resetCrc s.afterSample
      else exec (decodeCtl s.sampled.ctl) s.afterSample) (exec (decodeCmd s.sampled.cmd))

/-- The step after `withFetchWord` runs exactly the word's instruction, beside the input the
assembler writes on the other port (R73, R74; the model's choice, log 5). -/
def Obligations.FetchWordIsRunNext : Prop :=
  (∀ (s : State) (w : ControlWord), decodeTableWord 16 w.toNat = some (decodeCtl w) ∧
    step (s.withFetchWord 16 w.toNat) = andThen (exec (decodeCtl w) s) (exec (.mapUnknown 0x00))) ∧
  ∀ (s : State) (c : Byte), decodeTableWord 8 c.toNat = some (decodeCmd c) ∧
    step (s.withFetchWord 8 c.toNat) = andThen (exec (.nop 0x00) s) (exec (decodeCmd c))

/-- A step for which no input is listed samples free values and completes on them, whatever they are,
and counts the draw (the model's choice, log 1). -/
def Obligations.UnlistedInputsAreDrawn : Prop :=
  ∀ s : State, s.pending = [] → ∃ t, step s = .next t ∧
    t.crc = nextCrc (Config.callerRst s.draws) (Config.callerOp s.draws)
      (Config.callerDin s.draws) s.crc ∧
    t.mapPorts = mapGathered (Config.callerCmd s.draws) ∧
    t.crcPorts = ⟨s.crc, s.crc == 0x00⟩ ∧ t.pending = [] ∧ t.draws = s.draws + 1

/-- From R145, R149 and R55: a run consumes one input a step, with no stall and no required gap, and
the running value is the next-state function folded over the inputs in their order. -/
def Obligations.OneInputAStepInOrder : Prop :=
  ∀ (s : State) (ins : List Inputs), ∃ t, runInputs ins s = .next t ∧
    t.crc = ins.foldl (fun c inp => nextCrc inp.rst inp.op inp.din c) s.crc ∧
    t.pending = s.pending ∧ t.draws = s.draws

/-! ### Encodings -/

/-- Words of each family, written out from R61 and R65, decode to the instruction they stand for. The
byte layout under them, and that a word wider than the port is refused, are the model's own choice
(log 6): R32 says only that such an input cannot be presented. -/
def Obligations.WordsDecodeAsPrinted : Prop :=
  decodeTableWord 16 0b00_11111111 = some (.nop 0xFF) ∧
  decodeTableWord 16 0b01_11111111 = some (.init 0xFF) ∧
  decodeTableWord 16 0b10_00100011 = some (.upd 0x23) ∧
  decodeTableWord 16 0b11_00100011 = some (.initupd 0x23) ∧
  decodeTableWord 8 0b01010000 = some .mapConfigure ∧
  decodeTableWord 8 0b01010100 = some .mapReadCurrent ∧
  decodeTableWord 8 0b01010110 = some .mapReadAll ∧
  decodeTableWord 8 0b01010111 = some (.mapUnknown 0x57) ∧
  decodeTableWord 16 0b100_00100011 = none

/-- From R60, R61, R65 and R68: decoding an encoded well-formed instruction gives it back, on the port
and through its bytes (the byte layout is the model's, log 6). -/
def Obligations.DecodeOfEncode : Prop :=
  ∀ i : Instr, i.WellFormed → decodeWord (encode i) = i ∧ decode (encode i).toBytes = .ok i

/-- R63: each of the 1024 control words has exactly one meaning, its decoding, and no word traps. -/
def Obligations.EveryControlWordHasOneMeaning : Prop :=
  ∀ w : ControlWord, (decodeCtl w).WellFormed ∧ encode (decodeCtl w) = .ctl w ∧
    (∀ i : Instr, i.WellFormed → encode i = .ctl w → i = decodeCtl w) ∧
    ∀ s : State, ∃ t, exec (decodeCtl w) s = .next t

/-- R68: the decoder agrees with the opcode table read in priority order; a byte that is none of the
seven codes falls to the unknown row, which is last; no two other rows overlap. -/
def Obligations.DecoderAgreesWithTheOpcodeTable : Prop :=
  (∀ w : PortWord, (tableLookup w).map TableRow.mnemonic = some (decodeWord w).mnemonic) ∧
  (∀ c : Byte, decodeCmd c = .mapUnknown c ↔ c ∉ Config.commandCodes) ∧
  opcodeTable.getLast?.map TableRow.mnemonic = some "MAP_UNKNOWN" ∧
  opcodeTable.dropLast.Pairwise (fun r r' => ∀ w : PortWord,
    ¬ (r.matchesWord w = true ∧ r'.matchesWord w = true))

/-- R73: the inputs of each assembler line, and the control word of a line. -/
def Obligations.AssemblerLineInputs : Prop :=
  (∀ cmd : Byte, (∃ din, Line.inputsWith cmd .nop = ⟨false, 0b00, din, cmd⟩) ∧
    (∃ din, Line.inputsWith cmd .init = ⟨false, 0b01, din, cmd⟩) ∧
    (∀ b, Line.inputsWith cmd (.upd b) = ⟨false, 0b10, b, cmd⟩) ∧
    (∀ b, Line.inputsWith cmd (.initupd b) = ⟨false, 0b11, b, cmd⟩) ∧
    (Line.inputsWith cmd .rst).rst = true ∧ (Line.inputsWith cmd .rst).cmd = cmd) ∧
  (∀ l : Line, l.inputs = l.inputsWith 0x00) ∧
  (Line.inputs .nop).ctl = 0x000 ∧ (Line.inputs .init).ctl = 0x100 ∧
  (Line.inputs (.upd 0x23)).ctl = 0x223 ∧ (Line.inputs (.initupd 0x23)).ctl = 0x323

/-- R74: the four pseudo-instructions: their expansions and what they leave. -/
def Obligations.PseudoInstructionsExpand : Prop :=
  (∀ b bs, crcLines (b :: bs) = .initupd b :: bs.map .upd) ∧ crcLines [] = [.init] ∧
  (∀ (s : State) bs inp, ∃ t u, runInputs (assemble (crcLines bs)) s = .next t ∧
    step (t.present [inp]) = .next u ∧ u.crcPorts.crcOut = compute bs) ∧
  (∀ f : Frame, checkLines f = crcLines f.bytes) ∧
  (∀ (s : State) (f : Frame) inp, ∃ t u, runInputs (assemble (checkLines f)) s = .next t ∧
    step (t.present [inp]) = .next u ∧
    (u.crcPorts.crcZero = true ↔ f.checksum = compute f.covered)) ∧
  ∀ (s : State) cmd, mapLines cmd = [Line.inputsWith cmd .nop] ∧
    ∃ t, runInputs (mapLines cmd) s = .next t ∧ t.mapPorts = mapGathered cmd ∧ t.crc = s.crc

/-! ### The operations of the CRC unit -/

/-- R84: NOP, with its encoding, its flag, its corner cases and its example. -/
def Obligations.NopLeavesCrc : Prop :=
  (∀ din : Byte, decodeCtl (0x000 ||| din.setWidth 10) = .nop din) ∧
  (∀ (s : State) din, exec (.nop din) s = .next { s with crcPorts := ⟨s.crc, s.crc == 0x00⟩ }) ∧
  (∀ (s : State) (pre post : List Inputs) din cmd, ∃ t u,
    runInputs (pre ++ [⟨false, 0b00, din, cmd⟩] ++ post) s = .next t ∧
    runInputs (pre ++ post) s = .next u ∧ t.crc = u.crc ∧ t.crcZero = u.crcZero) ∧
  ∀ (s : State) din, s.crc = 0x78 → ∃ t, exec (.nop din) s = .next t ∧ t.crc = 0x78

/-- R85: INIT, with its encoding, its flag, its corner cases and its example. -/
def Obligations.InitLoadsTheInitialValue : Prop :=
  (∀ din : Byte, decodeCtl (0x100 ||| din.setWidth 10) = .init din) ∧
  (∀ (s : State) din, exec (.init din) s =
    .next { s with crcPorts := ⟨s.crc, s.crc == 0x00⟩, crc := 0x00 }) ∧
  (∀ (s : State) din, ∃ t, exec (.init din) s = .next t ∧ t.crcZero = true) ∧
  (∀ (s : State) din, s.crc = 0x00 → exec (.init din) s = exec (.nop din) s) ∧
  ∀ (s : State) din, s.crc = 0x6F → ∃ t, exec (.init din) s = .next t ∧ t.crc = 0x00

/-- R86: UPD, with its encoding, its flag, its corner cases and its example. -/
def Obligations.UpdFoldsOneByte : Prop :=
  (∀ din : Byte, decodeCtl (0x200 ||| din.setWidth 10) = .upd din) ∧
  (∀ (s : State) din, exec (.upd din) s =
    .next { s with crcPorts := ⟨s.crc, s.crc == 0x00⟩, crc := T (s.crc ^^^ din) }) ∧
  (∀ (s : State) din, ∃ t, exec (.upd din) s = .next t ∧ (t.crcZero = true ↔ din = s.crc)) ∧
  (∀ (s : State) din, ∃ t, exec (.upd din) s = .next t ∧
    (s.crc = 0x00 ∧ din = 0x00 → t.crc = 0x00) ∧
    (din = s.crc → t.crc = 0x00) ∧
    (s.crc ^^^ din = 0x80 → t.crc = 0x89) ∧
    (s.crc ^^^ din = 0x01 → t.crc = 0x07) ∧
    (s.crc ^^^ din = 0xFF → t.crc = 0xF3) ∧
    t.crc = T (din ^^^ s.crc)) ∧
  T 0xCA = 0x78 ∧
  ∀ s : State, s.crc = 0xE9 → ∃ t, exec (.upd 0x23) s = .next t ∧ t.crc = 0x78

/-- R87: INITUPD, with its encoding, its flag, its corner cases and its example. -/
def Obligations.InitupdStartsASequence : Prop :=
  (∀ din : Byte, decodeCtl (0x300 ||| din.setWidth 10) = .initupd din) ∧
  (∀ (s : State) din, exec (.initupd din) s =
    .next { s with crcPorts := ⟨s.crc, s.crc == 0x00⟩, crc := T din }) ∧
  (∀ (s : State) din, ∃ t, exec (.initupd din) s = .next t ∧ (t.crcZero = true ↔ din = 0x00)) ∧
  (∀ (s : State) d din, ∃ t u, exec (.initupd din) s = .next t ∧
    andThen (exec (.init d) s) (exec (.upd din)) = .next u ∧ t.crc = u.crc) ∧
  ∀ s : State, ∃ t, exec (.initupd 0x23) s = .next t ∧ t.crc = 0xE9

/-- The frame of the four operations (R84 to R87, R124): they complete, show the start-of-step value
on the CRC unit's ports, and change neither the mapper's outputs nor what is still to be presented;
`crc` is all else they may change, and NOP does not. -/
def Obligations.CrcOperationsFrame : Prop :=
  ∀ (s : State) (din : Byte), ∀ i ∈ [Instr.nop din, .init din, .upd din, .initupd din],
    ∃ t, exec i s = .next t ∧ t.crcPorts = ⟨s.crc, s.crc == 0x00⟩ ∧ t.mapPorts = s.mapPorts ∧
      t.pending = s.pending ∧ t.draws = s.draws ∧ (i = .nop din → t.crc = s.crc)

/-- From R22: in any step `crc` changes only by a reset, INIT, UPD or INITUPD. -/
def Obligations.OnlyFourWritersOfCrc : Prop :=
  ∀ (s : State) (inp : Inputs), ∃ t, step (s.present [inp]) = .next t ∧
    (t.crc ≠ s.crc → inp.rst = true ∨
      decodeCtl inp.ctl = .init inp.din ∨ decodeCtl inp.ctl = .upd inp.din ∨
      decodeCtl inp.ctl = .initupd inp.din)

/-! ### The mapper -/

/-- R105, R110: the two write commands. -/
def Obligations.WriteCommandOutputs : Prop :=
  (decodeCmd 0x50 = .mapConfigure ∧
    ∀ s : State, exec .mapConfigure s = .next { s with mapPorts := ⟨0x00, 0x80, true, 1, 0⟩ }) ∧
  (decodeCmd 0x55 = .mapCalibrate ∧
    ∀ s : State, exec .mapCalibrate s = .next { s with mapPorts := ⟨0x05, 0x80, true, 1, 0⟩ }) ∧
  (∀ c ∈ ([0x58, 0x48, 0x00] : List Byte), ∀ s : State, ∃ t, exec (decodeCmd c) s = .next t ∧
    t.mapPorts.regAddr = 0x00 ∧ t.mapPorts.known = false) ∧
  (∀ c : Byte, decodeCmd c = .mapConfigure ↔ c = 0x50) ∧
  (∀ c : Byte, decodeCmd c = .mapCalibrate ↔ c = 0x55) ∧
  sensorRegister (rsel 0x50) = .config ∧ sensorRegister (rsel 0x55) = .calibration

/-- R106, R107, R108, R109: the four single reads. -/
def Obligations.SingleReadOutputs : Prop :=
  (∀ s : State,
    exec .mapReadShuntVoltage s = .next { s with mapPorts := ⟨0x01, 0x80, true, 2, 0⟩ } ∧
    exec .mapReadBusVoltage s = .next { s with mapPorts := ⟨0x02, 0x80, true, 2, 2⟩ } ∧
    exec .mapReadPower s = .next { s with mapPorts := ⟨0x03, 0x80, true, 2, 4⟩ } ∧
    exec .mapReadCurrent s = .next { s with mapPorts := ⟨0x04, 0x80, true, 2, 6⟩ }) ∧
  (∀ c : Byte, (decodeCmd c = .mapReadShuntVoltage ↔ c = 0x51) ∧
    (decodeCmd c = .mapReadBusVoltage ↔ c = 0x52) ∧
    (decodeCmd c = .mapReadPower ↔ c = 0x53) ∧ (decodeCmd c = .mapReadCurrent ↔ c = 0x54)) ∧
  sensorRegister (rsel 0x51) = .shuntVoltage ∧ sensorRegister (rsel 0x52) = .busVoltage ∧
  sensorRegister (rsel 0x53) = .power ∧ sensorRegister (rsel 0x54) = .current

/-- R111: ReadAll, and the four look-ups a caller presents in its place. -/
def Obligations.ReadAllOutputs : Prop :=
  (∀ c : Byte, decodeCmd c = .mapReadAll ↔ c = 0x56) ∧
  (∀ s : State, exec .mapReadAll s = .next { s with mapPorts := ⟨0x06, 0x80, true, 3, 0⟩ }) ∧
  subReads = [0x51, 0x52, 0x53, 0x54] ∧
  subReads.map (fun c => ((mapOutputs c).regAddr, (mapOutputs c).snapOff)) =
    [(0x01, 0), (0x02, 2), (0x03, 4), (0x04, 6)] ∧
  ∀ c ∈ subReads, (mapOutputs c).regAddr ≠ 0x06

/-- R112: each of the 249 unknown bytes, with the rule's corner cases. -/
def Obligations.UnknownCommandOutputs : Prop :=
  (∀ (s : State) (c : Byte), (Instr.mapUnknown c).WellFormed → decodeCmd c = .mapUnknown c ∧
    exec (.mapUnknown c) s = .next { s with mapPorts := ⟨c &&& 0x07, 0x80, false, 0, 0⟩ }) ∧
  ((List.range 256).filter (fun n => decide (BitVec.ofNat 8 n ∉ Config.commandCodes))).length = 249 ∧
  ∀ p ∈ ([(0x57, 0x07), (0x58, 0x00), (0x23, 0x03), (0x00, 0x00), (0xD1, 0x01),
      (0xFF, 0x07)] : List (Byte × Byte)),
    ∀ s : State, exec (decodeCmd p.1) s = .next { s with mapPorts := ⟨p.2, 0x80, false, 0, 0⟩ }

/-- R100, R101, R102, R103, R104: each output of the mapper, for every command byte. -/
def Obligations.MapperOutputsForEveryCommand : Prop :=
  ∀ (s : State) (c : Byte), ∃ t, exec (decodeCmd c) s = .next t ∧
    (t.mapPorts.regAddr = (c.extractLsb' 0 3).setWidth 8 ∧ t.mapPorts.regAddr = c &&& 0x07) ∧
    t.mapPorts.devAddr = 0x80 ∧
    (t.mapPorts.known = true ↔ 0x50 ≤ c.toNat ∧ c.toNat ≤ 0x56) ∧
    (t.mapPorts.kind = 1 ↔ c = 0x50 ∨ c = 0x55) ∧
    (t.mapPorts.kind = 2 ↔ c = 0x51 ∨ c = 0x52 ∨ c = 0x53 ∨ c = 0x54) ∧
    (t.mapPorts.kind = 3 ↔ c = 0x56) ∧
    (t.mapPorts.kind = 0 ↔ c ∉ Config.commandCodes) ∧
    (t.mapPorts.kind = 2 → t.mapPorts.snapOff.toNat = 2 * (t.mapPorts.regAddr.toNat - 1)) ∧
    (t.mapPorts.kind ≠ 2 → t.mapPorts.snapOff = 0)

/-- R113: the mapper's outputs in a step are the gathered function of the step's command byte, whose
subtraction is evaluated only for `cmd[2:0]` in 1 to 4. -/
def Obligations.StepDrivesTheGatheredMapper : Prop :=
  (∀ (s : State) (inp : Inputs), ∃ t, step (s.present [inp]) = .next t ∧
    t.mapPorts = mapGathered inp.cmd) ∧
  ∀ c : Byte, c = 0x51 ∨ c = 0x52 ∨ c = 0x53 ∨ c = 0x54 →
    1 ≤ (rsel c).toNat ∧ (rsel c).toNat ≤ 4 ∧
    (mapGathered c).snapOff.toNat = 2 * ((rsel c).toNat - 1)

/-- The frame of the eight look-ups (R105 to R112, R124): they complete and change nothing but the
mapper's outputs. -/
def Obligations.MapperLookupsFrame : Prop :=
  ∀ (s : State) (c : Byte), ∀ i ∈ [Instr.mapConfigure, .mapReadShuntVoltage, .mapReadBusVoltage,
      .mapReadPower, .mapReadCurrent, .mapCalibrate, .mapReadAll, .mapUnknown c],
    ∃ t, exec i s = .next t ∧ t.crc = s.crc ∧ t.crcPorts = s.crcPorts ∧
      t.pending = s.pending ∧ t.draws = s.draws

/-- R124: of the inputs only `rst` and `op` compete, and reset wins; `cmd` does not affect `crc`, and
`rst`, `op` and `din` do not affect the mapper; the two units may act in either order. -/
def Obligations.UnitsDoNotInteract : Prop :=
  (∀ (s : State) op din cmd, ∃ t, step (s.present [⟨true, op, din, cmd⟩]) = .next t ∧ t.crc = 0x00) ∧
  (∀ (s : State) rst op din cmd cmd', ∃ t u,
    step (s.present [⟨rst, op, din, cmd⟩]) = .next t ∧
    step (s.present [⟨rst, op, din, cmd'⟩]) = .next u ∧ t.crc = u.crc ∧ t.crcPorts = u.crcPorts) ∧
  (∀ (s s' : State) rst rst' op op' din din' cmd, ∃ t u,
    step (s.present [⟨rst, op, din, cmd⟩]) = .next t ∧
    step (s'.present [⟨rst', op', din', cmd⟩]) = .next u ∧ t.mapPorts = u.mapPorts) ∧
  ∀ (s : State) (w : ControlWord) (c : Byte),
    andThen (exec (decodeCtl w) s) (exec (decodeCmd c)) =
      andThen (exec (decodeCmd c) s) (exec (decodeCtl w))

/-- From R26 and R28: two states that agree on `crc` cannot be told apart by any inputs: after the same
steps they agree on `crc` and on every output. -/
def Obligations.NothingIsHidden : Prop :=
  ∀ (s s' : State) (ins : List Inputs) (inp : Inputs), s.crc = s'.crc → ∃ t t',
    runInputs (ins ++ [inp]) s = .next t ∧ runInputs (ins ++ [inp]) s' = .next t' ∧
    t.crc = t'.crc ∧ t.crcPorts = t'.crcPorts ∧ t.mapPorts = t'.mapPorts

/-- R100 to R104 and R24 as an invariant: whatever a state's ports showed, after a step they show a
legal combination. -/
def Obligations.EveryStepLeavesLegalPorts : Prop :=
  ∀ s t : State, step s = .next t → t.PortsLegal

/-- The reset state's ports are legal; the mapper's values there are the model's choice (log 3). -/
def Obligations.ResetPortsAreLegal : Prop := State.reset.PortsLegal

/-! ### The CRC functions and their laws -/

/-- R80: the bit loop, its order (shift, then XOR), and the worked trace of `0x23`. -/
def Obligations.BitLoopAsPrinted : Prop :=
  (∀ v : Byte, bitStep v = if v.getLsbD 7 then (v <<< 1) ^^^ 0x07 else v <<< 1) ∧
  (∀ x : Byte, T x = bitStep (bitStep (bitStep (bitStep (bitStep (bitStep (bitStep (bitStep x)))))))) ∧
  (List.range 8).map (fun k => bitLoop (k + 1) 0x23) =
    [0x46, 0x8C, 0x1F, 0x3E, 0x7C, 0xF8, 0xF7, 0xE9] ∧
  T 0x23 = 0xE9

/-- R82: the checksum of a sequence: from the initial value, one byte at a time in order, and the
running value itself at the end. -/
def Obligations.ComputeByteByByte : Prop :=
  compute [] = 0x00 ∧ (∀ bs b, compute (bs ++ [b]) = T (compute bs ^^^ b)) ∧
  compute [0x31, 0x32, 0x33, 0x34, 0x35, 0x36, 0x37, 0x38, 0x39] = 0xF4

/-- R95: every entry of the printed table is the bit loop's value. -/
def Obligations.TableFormIsTheBitLoop : Prop := ∀ x : Byte, tableT x = some (T x)

/-- R89: `T` is linear over GF(2), a bijection on bytes, and the update is zero exactly for equal
operands. -/
def Obligations.ByteMapIsLinearAndBijective : Prop :=
  (∀ x y : Byte, T (x ^^^ y) = T x ^^^ T y) ∧ T 0x00 = 0x00 ∧ (∀ x : Byte, T x = 0x00 → x = 0x00) ∧
  Function.Bijective T ∧ ∀ c b : Byte, upd c b = 0x00 ↔ c = b

/-- R83: the unit computes the checksum: any of the three ways to start, NOPs anywhere among the steps
with any `din` and `cmd`; `crc_out` shows the result from the next step on; an INIT or a reset alone
leaves `0x00`. -/
def Obligations.UnitComputesTheChecksum : Prop :=
  (∀ (s : State) ins b bs inp, PresentsOperations ins (.initupd b :: bs.map .upd) →
    ∃ t u, runInputs ins s = .next t ∧ t.crc = compute (b :: bs) ∧
      step (t.present [inp]) = .next u ∧ u.crcPorts.crcOut = compute (b :: bs)) ∧
  (∀ (s : State) ins d bs inp, PresentsOperations ins (.init d :: bs.map .upd) →
    ∃ t u, runInputs ins s = .next t ∧ t.crc = compute bs ∧
      step (t.present [inp]) = .next u ∧ u.crcPorts.crcOut = compute bs) ∧
  (∀ (s : State) op din cmd ins bs inp, PresentsOperations ins (bs.map .upd) →
    ∃ t u, runInputs (⟨true, op, din, cmd⟩ :: ins) s = .next t ∧ t.crc = compute bs ∧
      step (t.present [inp]) = .next u ∧ u.crcPorts.crcOut = compute bs) ∧
  compute [] = 0x00

/-- R90: the residue law, on the unit: after a sequence and one more byte, `crc` is zero exactly if
that byte is the sequence's checksum. -/
def Obligations.ResidueLaw : Prop :=
  ∀ (s : State) (m : List Byte) (b : Byte), ∃ t,
    runInputs (assemble (crcLines m ++ [.upd b])) s = .next t ∧
    (b = compute m → t.crc = 0x00) ∧ (b ≠ compute m → t.crc ≠ 0x00)

/-- From R91, R123 and R149: the compare method and the residue method of the frame check agree for
every frame and from every state; the residue check takes six steps and its verdict is on `crc_zero`
in the seventh. -/
def Obligations.FrameCheckMethodsAgree : Prop :=
  ∀ (s : State) (f : Frame) (inp : Inputs), (assemble (checkLines f)).length = 6 ∧
    ∃ t t' u u', runInputs (assemble (crcLines f.covered)) s = .next t ∧
      step (t.present [inp]) = .next t' ∧
      runInputs (assemble (checkLines f)) s = .next u ∧ step (u.present [inp]) = .next u' ∧
      (t'.crcPorts.crcOut = f.checksum ↔ u'.crcPorts.crcZero = true) ∧
      (u'.crcPorts.crcZero = true ↔ f.checksumCorrect)

/-- From R92: flipping any 1, 2 or 3 of the 48 bits of a frame with a correct checksum leaves a
residue that is not zero; the residue is that of the error pattern alone; and one error pattern of
weight 4 is not detected. -/
def Obligations.UpToThreeBitErrorsAreDetected : Prop :=
  (∀ f e : Frame, f.checksumCorrect → compute (f.flip e).bytes = compute e.bytes) ∧
  (∀ (s : State) (f e : Frame), f.checksumCorrect → 1 ≤ weight e.bytes → weight e.bytes ≤ 3 →
    ∃ t, runInputs (assemble (checkLines (f.flip e))) s = .next t ∧ t.crc ≠ 0x00) ∧
  weight [0xC2, 0x40, 0x00, 0x00, 0x00, 0x00] = 4 ∧
  compute [0xC2, 0x40, 0x00, 0x00, 0x00, 0x00] = 0x00

/-- R93: leading zero bytes, the all-zero frame, and the source's malformed frame. -/
def Obligations.LeadingZerosDoNotCount : Prop :=
  (∀ (k : Nat) (m : List Byte), compute (List.replicate k 0x00 ++ m) = compute m) ∧
  (∀ (s : State) (k : Nat), s.crc = 0x00 → ∃ t,
    runInputs (assemble (feedLines (List.replicate k 0x00))) s = .next t ∧ t.crc = 0x00) ∧
  ((Frame.ofFields 0 0 0 0 0 0).checksumCorrect ∧ validate (.ofFields 0 0 0 0 0 0) = .headerMismatch) ∧
  compute [0x00, 0x00, 0x56, 0x00, 0x00] = 0x59 ∧
  ¬ (Frame.ofFields 0x00 0x00 0x56 0 0 0).checksumCorrect ∧
  validate (.ofFields 0x00 0x00 0x56 0 0 0) = .headerMismatch

/-- R94: after the residue check of a frame, a message fed without a start gets its own checksum
exactly if the frame's checksum matched; one started with INIT or INITUPD always does. -/
def Obligations.ChainingAfterAFrameCheck : Prop :=
  ∀ (s : State) (f : Frame) (m : List Byte), ∃ t u v w,
    runInputs (assemble (checkLines f)) s = .next t ∧
    runInputs (assemble (checkLines f ++ feedLines m)) s = .next u ∧
    runInputs (assemble (checkLines f ++ .init :: feedLines m)) s = .next v ∧
    runInputs (assemble (checkLines f ++ crcLines m)) s = .next w ∧
    (f.checksumCorrect ↔ t.crc = 0x00) ∧ (f.checksumCorrect ↔ u.crc = compute m) ∧
    v.crc = compute m ∧ w.crc = compute m

/-- From R146: a message fed without a start gives its own checksum exactly if `crc` was zero. With
R146's example. -/
def Obligations.MessageWithoutAStart : Prop :=
  (∀ (s : State) (m : List Byte), ∃ t, runInputs (assemble (feedLines m)) s = .next t ∧
    (t.crc = compute m ↔ s.crc = 0x00)) ∧
  ∀ s : State, s.crc = 0x88 → ∃ t,
    runInputs (assemble (feedLines [0x23, 0x23, 0x52, 0x00, 0x00])) s = .next t ∧ t.crc = 0x4A

/-- From R147 (a reset or an INIT) with R140, R85 and R87 (INITUPD, which does not depend on the old
`crc` either): each of them in the middle of a message discards the bytes fed before it. -/
def Obligations.InterruptedMessageIsDiscarded : Prop :=
  ∀ (s s' : State) (pre post : List Inputs) (x : Inputs),
    x.rst = true ∨ x.op = 0b01 ∨ x.op = 0b11 → ∃ t u,
      runInputs (pre ++ x :: post) s = .next t ∧ runInputs (x :: post) s' = .next u ∧ t.crc = u.crc

/-- From R131: with `op = NOP` and `rst = 0` the unit holds `crc`, for any number of steps. -/
def Obligations.IdleHoldsCrc : Prop :=
  ∀ (s : State) (ins : List Inputs), (∀ inp ∈ ins, inp.isNop = true) →
    ∃ t, runInputs ins s = .next t ∧ t.crc = s.crc

/-- From R82 and R89 (V-CRC-21): the checksum is linear on sequences of equal length. -/
def Obligations.ChecksumIsLinear : Prop :=
  ∀ a b : List Byte, a.length = b.length →
    compute (List.zipWith (· ^^^ ·) a b) = compute a ^^^ compute b

/-! ### The address spaces, and the caller's rules (context) -/

/-- R45, R52: the layout of the Register Snapshot; the offset the mapper drives for a single read is
even and is the slot of the register it addresses, high byte first. -/
def Obligations.SnapshotOffsetsMatchRegisters : Prop :=
  SNAPSHOT_BYTES = 8 ∧
  (List.range 8).map (fun n => snapshotContents (BitVec.ofNat 3 n)) =
    [(.shuntVoltage, .high), (.shuntVoltage, .low), (.busVoltage, .high), (.busVoltage, .low),
     (.power, .high), (.power, .low), (.current, .high), (.current, .low)] ∧
  sensorRegister 1 = .shuntVoltage ∧ sensorRegister 2 = .busVoltage ∧
  sensorRegister 3 = .power ∧ sensorRegister 4 = .current ∧
  ∀ c : Byte, (mapOutputs c).kind = 2 →
    (mapOutputs c).snapOff.toNat % 2 = 0 ∧ (mapOutputs c).snapOff.toNat + 1 < 8 ∧
    snapshotContents (mapOutputs c).snapOff = (sensorRegister (rsel c), .high) ∧
    snapshotContents ((mapOutputs c).snapOff + 1) = (sensorRegister (rsel c), .low)

/-- From R41 and R42: the mapper produces exactly the register numbers 0 to 7, and the known commands
reach the registers the source names for them. -/
def Obligations.RegisterNumbersReached : Prop :=
  (∀ (s : State) (c : Byte), ∃ t, exec (decodeCmd c) s = .next t ∧ t.mapPorts.regAddr.toNat < 8) ∧
  (∀ n : Nat, n < 8 → ∃ c : Byte, (mapOutputs c).regAddr.toNat = n) ∧
  Config.commandCodes.map (fun c => sensorRegister (rsel (mapOutputs c).regAddr)) =
    [.config, .shuntVoltage, .busVoltage, .power, .current, .calibration, .unnamed6]

/-- From R125: the validator's answers and their order, and its checksum half met by the block's own
residue check. -/
def Obligations.ValidatorOrderAndTheBlock : Prop :=
  (∀ f : Frame, (validate f = .headerMismatch ↔ f.header1 ≠ 0x23 ∨ f.header2 ≠ 0x23) ∧
    (validate f = .checksumMismatch ↔
      f.header1 = 0x23 ∧ f.header2 = 0x23 ∧ ¬ f.checksumCorrect) ∧
    (validate f = .ok ↔ f.header1 = 0x23 ∧ f.header2 = 0x23 ∧ f.checksumCorrect)) ∧
  ∀ (s : State) (f : Frame), f.header1 = 0x23 → f.header2 = 0x23 → ∃ t,
    runInputs (assemble (checkLines f)) s = .next t ∧
    (t.crcZero = true ↔ validate f = .ok) ∧ (t.crcZero = false ↔ validate f = .checksumMismatch)

/-- From R126, the error replies, and from R125 and S-3, that a frame that does not pass both tests is
answered by its error reply alone, nothing dispatched and the snapshot untouched; through the caller
functions of log 13. -/
def Obligations.ErrorReplies : Prop :=
  errorReply .checksumMismatch = [0x3F, 0x3F, 0x3F, 0x30] ∧
  errorReply .headerMismatch = [0x3F, 0x3F, 0x3F, 0x31] ∧
  ∀ (order : WriteByteOrder) (bus : Bus) (f : Frame) (snap : Snapshot), validate f ≠ .ok →
    handleFrame order bus f snap = .answered ⟨errorReply (validate f), snap⟩

/-- From R69 and R70: what is received as a frame, which bytes its checksum covers, and that the
checksum byte is the one left over. -/
def Obligations.FrameLayout : Prop :=
  (∀ bytes : List Byte, (Frame.ofBytes bytes).isSome = true ↔ bytes.length = 6) ∧
  (∀ bytes f, Frame.ofBytes bytes = some f → f.bytes = bytes) ∧
  ∀ f : Frame, f.covered = [f.header1, f.header2, f.command, f.param1, f.param2] ∧
    f.bytes = f.covered ++ [f.checksum]

/-- From R72 and R127, through the caller functions of log 13: the reply of each known command to a
valid frame once the bus has answered, the write status 0 for success and 1 for failure, a failed write
being no error. -/
def Obligations.ReplyShapes : Prop :=
  writeStatusByte .success = 0 ∧ writeStatusByte .failure = 1 ∧
  (∀ (order : WriteByteOrder) (bus : Bus) (f : Frame) (snap : Snapshot) (st : WriteStatus),
    validate f = .ok → f.command = 0x50 →
    bus.write 0x80 0x00 (writeData order f.param1 f.param2) = some st →
    handleFrame order bus f snap =
      .answered ⟨[0x23, 0x23, 0x50, 0x23, 0x23, 0x50, writeStatusByte st], snap⟩) ∧
  (∀ (order : WriteByteOrder) (bus : Bus) (f : Frame) (snap : Snapshot) (st : WriteStatus),
    validate f = .ok → f.command = 0x55 →
    bus.write 0x80 0x05 (writeData order f.param1 f.param2) = some st →
    handleFrame order bus f snap = .answered ⟨[0x23, 0x23, 0x55, writeStatusByte st], snap⟩) ∧
  (∀ (order : WriteByteOrder) (bus : Bus) (f : Frame) (snap : Snapshot) (hi lo : Byte),
    validate f = .ok → f.command ∈ ([0x51, 0x52, 0x53, 0x54] : List Byte) →
    bus.read 0x80 (f.command &&& 0x07) = some (hi, lo) →
    ∃ snap', handleFrame order bus f snap = .answered ⟨[0x23, 0x23, f.command, hi, lo], snap'⟩) ∧
  ∀ (order : WriteByteOrder) (bus : Bus) (f : Frame) (snap : Snapshot) (v : Byte → Byte × Byte),
    validate f = .ok → f.command = 0x56 → (∀ r, bus.read 0x80 r = some (v r)) →
    ∃ snap', handleFrame order bus f snap = .answered
      ⟨[0x23, 0x23, 0x56, (v 1).1, (v 1).2, (v 2).1, (v 2).2, (v 3).1, (v 3).2, (v 4).1, (v 4).2], snap'⟩

/-- From R67, R112 and R127: an unknown command in a valid frame gives no reply and no error. -/
def Obligations.UnknownCommandIsSilentlyIgnored : Prop :=
  ∀ (order : WriteByteOrder) (bus : Bus) (f : Frame) (snap : Snapshot),
    validate f = .ok → f.command ∉ Config.commandCodes →
    handleFrame order bus f snap = .answered ⟨[], snap⟩

/-- From R42, R111 and R112 (D33): whatever the frame, the caller never accesses a register the source
does not name. -/
def Obligations.UnnamedRegistersAreNeverAccessed : Prop :=
  ∀ (order : WriteByteOrder) (bus : Bus) (f : Frame) (snap : Snapshot) (r : SensorRegister),
    handleFrame order bus f snap ≠ .refused r

/-- From R47, R48 and S-8: against a bus with a fixed value for each register, ReadAll leaves the
snapshot four single reads leave, and its 8-byte payload is their concatenation in the fixed order. -/
def Obligations.ReadAllIsFourSingleReads : Prop :=
  ∀ (write : Byte → Byte → Byte × Byte → Option WriteStatus) (v : Byte → Byte × Byte) (snap : Snapshot),
    let bus : Bus := ⟨write, fun _ r => some (v r)⟩
    ∃ s1 s2 s3 s4, readRegister bus 0x51 snap = .answered s1 ∧
      readRegister bus 0x52 s1 = .answered s2 ∧ readRegister bus 0x53 s2 = .answered s3 ∧
      readRegister bus 0x54 s3 = .answered s4 ∧ readAll bus snap = .answered s4 ∧
      s4.toList = [(v 1).1, (v 1).2, (v 2).1, (v 2).2, (v 3).1, (v 3).2, (v 4).1, (v 4).2]
end

