-- ==== Sys2Proof/Laws/Caller.lean ====
section
/-! SUPPORT. The fields of a frame, and a frame as its six fields. -/

namespace Sys2Proof.Machine

section
variable (h1 h2 c p1 p2 k : Byte)

@[simp] theorem Frame.header1_ofFields : (Frame.ofFields h1 h2 c p1 p2 k).header1 = h1 := rfl
@[simp] theorem Frame.header2_ofFields : (Frame.ofFields h1 h2 c p1 p2 k).header2 = h2 := rfl
@[simp] theorem Frame.command_ofFields : (Frame.ofFields h1 h2 c p1 p2 k).command = c := rfl
@[simp] theorem Frame.param1_ofFields : (Frame.ofFields h1 h2 c p1 p2 k).param1 = p1 := rfl
@[simp] theorem Frame.param2_ofFields : (Frame.ofFields h1 h2 c p1 p2 k).param2 = p2 := rfl
@[simp] theorem Frame.checksum_ofFields : (Frame.ofFields h1 h2 c p1 p2 k).checksum = k := rfl
@[simp] theorem Frame.bytes_ofFields :
    (Frame.ofFields h1 h2 c p1 p2 k).bytes = [h1, h2, c, p1, p2, k] := rfl
@[simp] theorem Frame.covered_ofFields :
    (Frame.ofFields h1 h2 c p1 p2 k).covered = [h1, h2, c, p1, p2] := rfl

end

/-- Every frame is its six fields (30_encoding.md R69). -/
theorem Frame.exists_fields (f : Frame) : ∃ h1 h2 c p1 p2 k, f = Frame.ofFields h1 h2 c p1 p2 k := by
  obtain ⟨⟨⟨l⟩, h⟩⟩ := f
  match l, h with
  | [h1, h2, c, p1, p2, k], _ => exact ⟨h1, h2, c, p1, p2, k, rfl⟩

end Sys2Proof.Machine
end

