-- ==== Sys2Proof/Laws/Crc.lean ====
section
/-! SUPPORT. The running value over sequences, and one iteration of the bit loop. -/

namespace Sys2Proof.Machine

@[simp] theorem fold_nil (c : Byte) : fold c [] = c := rfl
@[simp] theorem fold_cons (c b : Byte) (bs : List Byte) : fold c (b :: bs) = fold (upd c b) bs := rfl
theorem fold_append (c : Byte) (a b : List Byte) : fold c (a ++ b) = fold (fold c a) b := by
  simp [fold]
theorem compute_eq_fold (bs : List Byte) : compute bs = fold 0 bs := rfl
@[simp] theorem compute_nil : compute [] = 0 := rfl
theorem compute_append (a b : List Byte) : compute (a ++ b) = fold (compute a) b := fold_append _ a b

/-- One iteration of the bit loop is linear over GF(2). -/
theorem bitStep_xor (x y : Byte) : bitStep (x ^^^ y) = bitStep x ^^^ bitStep y := by
  unfold bitStep
  rw [BitVec.getLsbD_xor, BitVec.shiftLeft_xor_distrib]
  cases x.getLsbD 7 <;> cases y.getLsbD 7 <;> simp <;> ac_nf
  rw [← BitVec.xor_assoc Config.POLY, BitVec.xor_self, BitVec.zero_xor]

/-- So is every number of iterations. -/
theorem bitLoop_xor (n : Nat) (x y : Byte) : bitLoop n (x ^^^ y) = bitLoop n x ^^^ bitLoop n y := by
  induction n generalizing x y with
  | zero => rfl
  | succ n ih => rw [bitLoop, bitStep_xor, ih]; rfl

end Sys2Proof.Machine
end

