-- ==== Sys2Proof/Laws/Decode.lean ====
section
/-! SUPPORT. The fields of a control word, and the decoder on each operation code. -/

namespace Sys2Proof

@[simp] theorem opField_controlWord (op : OpCode) (din : Byte) :
    opField (controlWord op din) = op := BitVec.extractLsb'_append_eq_left

@[simp] theorem dinField_controlWord (op : OpCode) (din : Byte) :
    dinField (controlWord op din) = din := BitVec.extractLsb'_append_eq_right

/-- A control word is its two fields. -/
theorem controlWord_fields (w : ControlWord) : controlWord (opField w) (dinField w) = w :=
  (BitVec.extractLsb'_append_extractLsb'_eq_extractLsb' rfl).trans BitVec.extractLsb'_eq_self

/-- Every operation code is one of the four (30_encoding.md R61). -/
theorem opCode_cases (op : OpCode) :
    op = Config.OP_NOP ∨ op = Config.OP_INIT ∨ op = Config.OP_UPD ∨ op = Config.OP_INITUPD := by
  revert op; decide

theorem decodeCtl_nop (din : Byte) : decodeCtl (controlWord Config.OP_NOP din) = .nop din := by
  simp [decodeCtl]
theorem decodeCtl_init (din : Byte) : decodeCtl (controlWord Config.OP_INIT din) = .init din := by
  simp [decodeCtl, Config.OP_NOP, Config.OP_INIT]
theorem decodeCtl_upd (din : Byte) : decodeCtl (controlWord Config.OP_UPD din) = .upd din := by
  simp [decodeCtl, Config.OP_NOP, Config.OP_INIT, Config.OP_UPD]
theorem decodeCtl_initupd (din : Byte) :
    decodeCtl (controlWord Config.OP_INITUPD din) = .initupd din := by
  simp [decodeCtl, Config.OP_NOP, Config.OP_INIT, Config.OP_UPD, Config.OP_INITUPD]

/-- What the command decoder answers: one of the seven codes' look-ups, or the unknown row for a byte
that is none of them (30_encoding.md R68). -/
theorem decodeCmd_cases (c : Byte) :
    (c = Config.CMD_CONFIGURE ∧ decodeCmd c = .mapConfigure) ∨
    (c = Config.CMD_READ_SHUNT_VOLTAGE ∧ decodeCmd c = .mapReadShuntVoltage) ∨
    (c = Config.CMD_READ_BUS_VOLTAGE ∧ decodeCmd c = .mapReadBusVoltage) ∨
    (c = Config.CMD_READ_POWER ∧ decodeCmd c = .mapReadPower) ∨
    (c = Config.CMD_READ_CURRENT ∧ decodeCmd c = .mapReadCurrent) ∨
    (c = Config.CMD_CALIBRATE ∧ decodeCmd c = .mapCalibrate) ∨
    (c = Config.CMD_READ_ALL ∧ decodeCmd c = .mapReadAll) ∨
    (c ∉ Config.commandCodes ∧ decodeCmd c = .mapUnknown c) := by
  by_cases h : c ∈ Config.commandCodes
  · simp only [Config.commandCodes, List.mem_cons, List.not_mem_nil, or_false] at h
    rcases h with rfl | rfl | rfl | rfl | rfl | rfl | rfl <;> decide
  · refine .inr (.inr (.inr (.inr (.inr (.inr (.inr ⟨h, ?_⟩))))))
    simp only [Config.commandCodes, List.mem_cons, List.not_mem_nil, or_false, not_or] at h
    simp [decodeCmd, h]

end Sys2Proof
end

