-- ==== Sys2Proof/Laws/PerInstr.lean ====
section
/-! SUPPORT. The family TableRow: the word of an instruction belongs to the instruction's own row of
opcode_table.json, the first that it belongs to. -/

namespace Sys2Proof.Laws.TableRow

/-- The opcode table looks the encoded instruction up under its own mnemonic (30_encoding.md R68). -/
def Statement (i : Instr) : Prop :=
  i.WellFormed → (tableLookup (encode i)).map TableRow.mnemonic = some i.mnemonic

theorem nop (din : Byte) : Statement (.nop din) := by
  intro _; revert din; decide
theorem init (din : Byte) : Statement (.init din) := by
  intro _; revert din; decide
theorem upd (din : Byte) : Statement (.upd din) := by
  intro _; revert din; decide
theorem initupd (din : Byte) : Statement (.initupd din) := by
  intro _; revert din; decide
theorem mapConfigure : Statement .mapConfigure := by intro _; decide
theorem mapReadShuntVoltage : Statement .mapReadShuntVoltage := by intro _; decide
theorem mapReadBusVoltage : Statement .mapReadBusVoltage := by intro _; decide
theorem mapReadPower : Statement .mapReadPower := by intro _; decide
theorem mapReadCurrent : Statement .mapReadCurrent := by intro _; decide
theorem mapCalibrate : Statement .mapCalibrate := by intro _; decide
theorem mapReadAll : Statement .mapReadAll := by intro _; decide
theorem mapUnknown (cmd : Byte) : Statement (.mapUnknown cmd) := by
  unfold Statement; revert cmd; decide

end Sys2Proof.Laws.TableRow
end

