-- ==== Sys2Proof/Laws/State.lean ====
section
/-! SUPPORT. One lemma per field and update of State, and the sampling of inputs. -/

namespace Sys2Proof.Machine

/-! ### `commit` -/

@[simp] theorem State.commit_crc (s : State) (v : Byte) : (s.commit v).crc = v := rfl
@[simp] theorem State.commit_crcPorts (s : State) (v : Byte) :
    (s.commit v).crcPorts = ⟨s.crcOut, s.crcZero⟩ := rfl
@[simp] theorem State.commit_mapPorts (s : State) (v : Byte) : (s.commit v).mapPorts = s.mapPorts := rfl
@[simp] theorem State.commit_pending (s : State) (v : Byte) : (s.commit v).pending = s.pending := rfl
@[simp] theorem State.commit_draws (s : State) (v : Byte) : (s.commit v).draws = s.draws := rfl

/-! ### `driveMapper` -/

@[simp] theorem State.driveMapper_crc (s : State) (p : MapPorts) : (s.driveMapper p).crc = s.crc := rfl
@[simp] theorem State.driveMapper_crcPorts (s : State) (p : MapPorts) :
    (s.driveMapper p).crcPorts = s.crcPorts := rfl
@[simp] theorem State.driveMapper_mapPorts (s : State) (p : MapPorts) :
    (s.driveMapper p).mapPorts = p := rfl
@[simp] theorem State.driveMapper_pending (s : State) (p : MapPorts) :
    (s.driveMapper p).pending = s.pending := rfl
@[simp] theorem State.driveMapper_draws (s : State) (p : MapPorts) :
    (s.driveMapper p).draws = s.draws := rfl

/-! ### `present` -/

@[simp] theorem State.present_crc (s : State) (ins : List Inputs) : (s.present ins).crc = s.crc := rfl
@[simp] theorem State.present_crcPorts (s : State) (ins : List Inputs) :
    (s.present ins).crcPorts = s.crcPorts := rfl
@[simp] theorem State.present_mapPorts (s : State) (ins : List Inputs) :
    (s.present ins).mapPorts = s.mapPorts := rfl
@[simp] theorem State.present_pending (s : State) (ins : List Inputs) :
    (s.present ins).pending = ins ++ s.pending := rfl
@[simp] theorem State.present_draws (s : State) (ins : List Inputs) :
    (s.present ins).draws = s.draws := rfl
@[simp] theorem State.present_nil (s : State) : s.present [] = s := rfl
theorem State.present_append (s : State) (a b : List Inputs) :
    s.present (a ++ b) = (s.present b).present a := by simp [State.present]

/-! ### Sampling -/

@[simp] theorem State.sampled_present_cons (s : State) (inp : Inputs) (rest : List Inputs) :
    (s.present (inp :: rest)).sampled = inp := rfl
@[simp] theorem State.afterSample_present_cons (s : State) (inp : Inputs) (rest : List Inputs) :
    (s.present (inp :: rest)).afterSample = s.present rest := rfl
theorem State.sampled_cons {s : State} {inp : Inputs} {rest : List Inputs}
    (h : s.pending = inp :: rest) : s.sampled = inp := by simp [State.sampled, h]
theorem State.afterSample_cons {s : State} {inp : Inputs} {rest : List Inputs}
    (h : s.pending = inp :: rest) : s.afterSample = { s with pending := rest } := by
  simp [State.afterSample, h]
theorem State.sampled_nil {s : State} (h : s.pending = []) : s.sampled = drawnInputs s.draws := by
  simp [State.sampled, h]
theorem State.afterSample_nil {s : State} (h : s.pending = []) :
    s.afterSample = { s with draws := s.draws + 1 } := by
  simp [State.afterSample, h]
@[simp] theorem State.afterSample_crc (s : State) : s.afterSample.crc = s.crc := by
  unfold State.afterSample; split <;> rfl
@[simp] theorem State.afterSample_crcPorts (s : State) : s.afterSample.crcPorts = s.crcPorts := by
  unfold State.afterSample; split <;> rfl
@[simp] theorem State.afterSample_mapPorts (s : State) : s.afterSample.mapPorts = s.mapPorts := by
  unfold State.afterSample; split <;> rfl

end Sys2Proof.Machine
end

