-- ==== Sys2Proof/Laws/Step.lean ====
section
/-! SUPPORT. Everything a unit, and a step, can do, said once: later proofs cite these and unfold
neither `exec` nor `step`. -/

namespace Sys2Proof.Machine

@[simp] theorem andThen_next (s : State) (f : State → Host.Outcome State Fault Refusal) :
    andThen (.next s) f = f s := rfl

/-- The CRC unit commits the next-state function of its inputs and the start-of-step value. -/
theorem crcUnit_eq (inp : Inputs) (s : State) :
    crcUnit inp s = .next (s.commit (nextCrc inp.rst inp.op inp.din s.crc)) := by
  obtain ⟨rst, op, din, cmd⟩ := inp
  cases rst with
  | true => rfl
  | false =>
    rcases opCode_cases op with rfl | rfl | rfl | rfl
    · simp only [crcUnit, Inputs.ctl, decodeCtl_nop]; rfl
    · simp only [crcUnit, Inputs.ctl, decodeCtl_init]; rfl
    · simp only [crcUnit, Inputs.ctl, decodeCtl_upd]; rfl
    · simp only [crcUnit, Inputs.ctl, decodeCtl_initupd]
      simp [exec, execInitupd, nextCrc, upd, Config.CRC_INIT, Config.OP_INITUPD, Config.OP_NOP,
        Config.OP_INIT, Config.OP_UPD]

/-- The mapper drives its outputs for the command byte. -/
theorem mapperUnit_eq (inp : Inputs) (s : State) :
    mapperUnit inp s = .next (s.driveMapper (mapOutputs inp.cmd)) := by
  unfold mapperUnit
  rcases decodeCmd_cases inp.cmd with ⟨hc, hd⟩ | ⟨hc, hd⟩ | ⟨hc, hd⟩ | ⟨hc, hd⟩ | ⟨hc, hd⟩ |
    ⟨hc, hd⟩ | ⟨hc, hd⟩ | ⟨_, hd⟩ <;> rw [hd] <;> first | rw [hc]; rfl | rfl

/-- The state a step with the inputs `inp` leaves, from the state `s` that has sampled them. -/
def afterUnits (inp : Inputs) (s : State) : State :=
  (s.commit (nextCrc inp.rst inp.op inp.din s.crc)).driveMapper (mapOutputs inp.cmd)

/-- A step completes, and this is all it does. -/
theorem step_eq (s : State) : step s = .next (afterUnits s.sampled s.afterSample) := by
  rw [step, runUnits, crcUnit_eq, andThen_next, mapperUnit_eq]; rfl

/-- The step in which the caller presents `inp`. -/
theorem step_present (s : State) (inp : Inputs) (rest : List Inputs) :
    step (s.present (inp :: rest)) = .next ((afterUnits inp s).present rest) := by
  rw [step_eq, State.sampled_present_cons, State.afterSample_present_cons]; rfl

@[simp] theorem afterUnits_crc (inp : Inputs) (s : State) :
    (afterUnits inp s).crc = nextCrc inp.rst inp.op inp.din s.crc := rfl
@[simp] theorem afterUnits_crcPorts (inp : Inputs) (s : State) :
    (afterUnits inp s).crcPorts = ⟨s.crcOut, s.crcZero⟩ := rfl
@[simp] theorem afterUnits_mapPorts (inp : Inputs) (s : State) :
    (afterUnits inp s).mapPorts = mapOutputs inp.cmd := rfl
@[simp] theorem afterUnits_pending (inp : Inputs) (s : State) :
    (afterUnits inp s).pending = s.pending := rfl
@[simp] theorem afterUnits_draws (inp : Inputs) (s : State) : (afterUnits inp s).draws = s.draws := rfl

end Sys2Proof.Machine
end

