-- ==== Sys2Proof/Laws/Run.lean ====
section
/-! SUPPORT. Runs: the state after a list of presented inputs, and the running value along it. -/

namespace Sys2Proof.Machine

/-- The state after the steps in which `ins` is presented. -/
def afterInputs : List Inputs → State → State
  | [], s => s
  | inp :: ins, s => afterInputs ins (afterUnits inp s)

/-- A run over presented inputs completes, in that state. -/
theorem runInputs_eq (ins : List Inputs) (s : State) : runInputs ins s = .next (afterInputs ins s) := by
  unfold runInputs
  induction ins generalizing s with
  | nil => rfl
  | cons inp ins ih => rw [List.length_cons, runSteps, step_present, andThen_next, ih]; rfl

theorem afterInputs_append (a b : List Inputs) (s : State) :
    afterInputs (a ++ b) s = afterInputs b (afterInputs a s) := by
  induction a generalizing s with
  | nil => rfl
  | cons inp a ih => exact ih _

@[simp] theorem afterInputs_pending (ins : List Inputs) (s : State) :
    (afterInputs ins s).pending = s.pending := by
  induction ins generalizing s with
  | nil => rfl
  | cons inp ins ih => exact ih _

@[simp] theorem afterInputs_draws (ins : List Inputs) (s : State) :
    (afterInputs ins s).draws = s.draws := by
  induction ins generalizing s with
  | nil => rfl
  | cons inp ins ih => exact ih _

/-- Feeding a list of bytes with UPD folds them into the running value. -/
theorem afterInputs_feed_crc (bs : List Byte) (s : State) :
    (afterInputs (assemble (feedLines bs)) s).crc = fold s.crc bs := by
  induction bs generalizing s with
  | nil => rfl
  | cons b bs ih => exact ih _

/-- The steps of the pseudo-instruction CRC leave the checksum, whatever `crc` held (30_encoding.md R74). -/
theorem afterInputs_crcLines_crc (bs : List Byte) (s : State) :
    (afterInputs (assemble (crcLines bs)) s).crc = compute bs := by
  cases bs with
  | nil => rfl
  | cons b bs =>
    refine (afterInputs_feed_crc bs _).trans ?_
    simp [Line.inputs, Line.inputsWith, nextCrc, compute_eq_fold, upd, Config.OP_INITUPD,
      Config.OP_NOP, Config.OP_INIT, Config.OP_UPD]

end Sys2Proof.Machine
end

