-- ==== Sys2Proof/Tests/Slice0.lean ====
section
/-! SUPPORT. Tests: every expected value is one the spec prints (95_test_vectors.md, the tables of
40_crc.md and 41_mapper.md, opcode_table.json), and a witness for every hypothesis of a statement. -/

namespace Sys2Proof.Tests

open Sys2Proof.Machine

/-- A state whose `crc` is `c`. -/
def start (c : Byte) : State := { State.reset with crc := c }

def crcAfter : Host.Outcome State Fault Refusal → Option Byte
  | .next t => some t.crc
  | .fault _ | .refused _ => none

def crcPortsAfter : Host.Outcome State Fault Refusal → Option CrcPorts
  | .next t => some t.crcPorts
  | .fault _ | .refused _ => none

def mapPortsAfter : Host.Outcome State Fault Refusal → Option MapPorts
  | .next t => some t.mapPorts
  | .fault _ | .refused _ => none

/-! ### WellFormed: an ill-formed term for the one check (R112, R68) -/

theorem test_illformed_unknown_configure : ¬ (Instr.mapUnknown 0x50).WellFormed := by decide
theorem test_illformed_unknown_readall : ¬ (Instr.mapUnknown 0x56).WellFormed := by decide
theorem test_wellformed_unknown_above : (Instr.mapUnknown 0x57).WellFormed := by decide
theorem test_wellformed_unknown_below : (Instr.mapUnknown 0x4F).WellFormed := by decide

/-! ### Decoding: words from V-CRC-07 to V-CRC-11 and the binary column of R65 -/

theorem test_decode_nop : decodeTableWord 16 0x0FF = some (.nop 0xFF) := by decide
theorem test_decode_init : decodeTableWord 16 0x1FF = some (.init 0xFF) := by decide
theorem test_decode_upd : decodeTableWord 16 0x223 = some (.upd 0x23) := by decide
theorem test_decode_initupd : decodeTableWord 16 0x323 = some (.initupd 0x23) := by decide
theorem test_decode_configure : decodeTableWord 8 0b01010000 = some .mapConfigure := by decide
theorem test_decode_shunt : decodeTableWord 8 0b01010001 = some .mapReadShuntVoltage := by decide
theorem test_decode_bus : decodeTableWord 8 0b01010010 = some .mapReadBusVoltage := by decide
theorem test_decode_power : decodeTableWord 8 0b01010011 = some .mapReadPower := by decide
theorem test_decode_current : decodeTableWord 8 0b01010100 = some .mapReadCurrent := by decide
theorem test_decode_calibrate : decodeTableWord 8 0b01010101 = some .mapCalibrate := by decide
theorem test_decode_readall : decodeTableWord 8 0b01010110 = some .mapReadAll := by decide
theorem test_decode_unknown : decodeTableWord 8 0b01010111 = some (.mapUnknown 0x57) := by decide
theorem test_decode_no_bits : decodeTableWord 0 0 = some (.mapUnknown 0x00) := by decide
theorem test_decode_nothing : decode [] = .error .noBytes := by rfl
theorem test_decode_above_ctl : decode [0x23, 0x06] = .error (.aboveControlWord 0x06) := by rfl
theorem test_decode_three_bytes : decode [0x23, 0x02, 0x00] = .error (.tooManyBytes 3) := by rfl

/-! ### Steps of the CRC unit -/

theorem test_step_nop : -- V-CRC-07
    crcAfter (step ((start 0x5A).present [⟨false, 0b00, 0xFF, 0x00⟩])) = some 0x5A := by decide
theorem test_step_init : -- V-CRC-08
    crcAfter (step ((start 0x5A).present [⟨false, 0b01, 0xFF, 0x00⟩])) = some 0x00 := by decide
theorem test_step_upd : -- R86, last line of V-CRC-11
    crcAfter (step ((start 0x5A).present [⟨false, 0b10, 0x23, 0x00⟩])) = some 0x68 := by decide
theorem test_step_initupd : -- V-CRC-10
    crcAfter (step ((start 0x5A).present [⟨false, 0b11, 0x23, 0x00⟩])) = some 0xE9 := by decide
theorem test_step_reset_wins : -- V-CRC-11
    crcAfter (step ((start 0x5A).present [⟨true, 0b10, 0x23, 0x00⟩])) = some 0x00 := by decide
theorem test_step_ports_show_start : -- V-CRC-23
    crcPortsAfter (step ((start 0x80).present [⟨false, 0b01, 0x00, 0x00⟩])) = some ⟨0x80, false⟩ := by
  decide
theorem test_fetch_word_from_reset : -- V-CRC-09
    crcAfter (step (State.reset.withFetchWord 16 0x223)) = some 0xE9 := by decide

/-! ### Look-ups of the mapper -/

theorem test_map_configure : -- V-MAP-01
    mapPortsAfter (step (State.reset.withFetchWord 8 0x50)) = some ⟨0x00, 0x80, true, 1, 0⟩ := by decide
theorem test_map_shunt : -- V-MAP-02
    mapPortsAfter (step (State.reset.withFetchWord 8 0x51)) = some ⟨0x01, 0x80, true, 2, 0⟩ := by decide
theorem test_map_bus : -- V-MAP-03
    mapPortsAfter (step (State.reset.withFetchWord 8 0x52)) = some ⟨0x02, 0x80, true, 2, 2⟩ := by decide
theorem test_map_power : -- V-MAP-04
    mapPortsAfter (step (State.reset.withFetchWord 8 0x53)) = some ⟨0x03, 0x80, true, 2, 4⟩ := by decide
theorem test_map_current : -- V-MAP-05
    mapPortsAfter (step (State.reset.withFetchWord 8 0x54)) = some ⟨0x04, 0x80, true, 2, 6⟩ := by decide
theorem test_map_calibrate : -- V-MAP-06
    mapPortsAfter (step (State.reset.withFetchWord 8 0x55)) = some ⟨0x05, 0x80, true, 1, 0⟩ := by decide
theorem test_map_readall : -- V-MAP-07
    mapPortsAfter (step (State.reset.withFetchWord 8 0x56)) = some ⟨0x06, 0x80, true, 3, 0⟩ := by decide
theorem test_map_unknown_above : -- V-MAP-08
    mapPortsAfter (step (State.reset.withFetchWord 8 0x57)) = some ⟨0x07, 0x80, false, 0, 0⟩ := by decide
theorem test_map_unknown_high_bit : -- V-MAP-14, beside a reset (R143)
    mapPortsAfter (step ((start 0x5A).present [⟨true, 0b00, 0x00, 0xD1⟩])) =
      some ⟨0x01, 0x80, false, 0, 0⟩ := by decide

/-! ### The CRC functions -/

theorem test_T_trace : -- V-CRC-03
    (List.range 8).map (fun k => bitLoop (k + 1) 0x23) =
      [0x46, 0x8C, 0x1F, 0x3E, 0x7C, 0xF8, 0xF7, 0xE9] := by decide
theorem test_compute_readall_frame : compute [0x23, 0x23, 0x56, 0x00, 0x00] = 0x6F := by
  decide +kernel -- V-CRC-13
theorem test_compute_order : compute [0x23, 0x56, 0x23, 0x00, 0x00] = 0xB4 := by
  decide +kernel -- V-CRC-12
theorem test_table_corner : tableT 0xFF = some 0xF3 := by decide -- V-CRC-06

/-! ### The caller's context: S-1, S-2, S-3 -/

/-- The mock sensor of S-1, every write acknowledged. -/
def mockBus : Bus where
  write _ _ _ := some .success
  read _ reg :=
    if reg = 1 then some (0x01, 0x02) else if reg = 2 then some (0x03, 0x04)
    else if reg = 3 then some (0x05, 0x06) else if reg = 4 then some (0x07, 0x08) else none

/-- A snapshot of zero bytes. -/
def blank : Snapshot := Vector.replicate 8 0x00

def replyOf : BusResult Handled → Option (List Byte)
  | .answered h => some h.reply
  | .hung | .refused _ => none

theorem test_readall_scenario : -- S-1
    replyOf (handleFrame .p1First mockBus (.ofFields 0x23 0x23 0x56 0x00 0x00 0x6F) blank) =
      some [0x23, 0x23, 0x56, 0x01, 0x02, 0x03, 0x04, 0x05, 0x06, 0x07, 0x08] := by decide +kernel
theorem test_configure_scenario : -- S-2, reply shape of R72
    replyOf (handleFrame .p1First mockBus (.ofFields 0x23 0x23 0x50 0x12 0x34 0xE3) blank) =
      some [0x23, 0x23, 0x50, 0x23, 0x23, 0x50, 0x00] := by decide +kernel
theorem test_malformed_scenario : -- S-3
    handleFrame .p1First mockBus (.ofFields 0x00 0x00 0x56 0 0 0) blank =
      .answered ⟨[0x3F, 0x3F, 0x3F, 0x31], blank⟩ := by decide +kernel

/-! ### Witnesses: what the hypotheses of the statements ask for, met -/

theorem witness_held_reset : [Line.inputs .rst, Line.inputs .rst] ≠ [] ∧
    ∀ inp ∈ [Line.inputs .rst, Line.inputs .rst], inp.rst = true := by decide
theorem witness_nextCrc_cases : -- one input for each clause of StepCommitsNextCrc
    (⟨true, 0b10, 0, 0⟩ : Inputs).rst = true ∧
    ((Line.inputs .nop).rst = false ∧ (Line.inputs .nop).op = 0b00) ∧
    ((Line.inputs .init).rst = false ∧ (Line.inputs .init).op = 0b01) ∧
    ((Line.inputs (.upd 0)).rst = false ∧ (Line.inputs (.upd 0)).op = 0b10) ∧
    ((Line.inputs (.initupd 0)).rst = false ∧ (Line.inputs (.initupd 0)).op = 0b11) := by decide
theorem witness_step_answers : ∃ t, step State.reset = .next t := ⟨_, step_eq _⟩
theorem witness_decoded_pair : decodeCtl (controlWord 0b10 0xFF) = .upd 0xFF ∧
    decodeCmd 0x56 = .mapReadAll := by decide
theorem witness_no_input_listed : State.reset.pending = [] := rfl
theorem witness_wellformed_encoding : (Instr.upd 0xFF).WellFormed ∧
    encode (.upd 0xFF) = .ctl 0x2FF := by decide
theorem witness_crc_values : (start 0x78).crc = 0x78 ∧ (start 0x00).crc = 0x00 ∧
    (start 0x6F).crc = 0x6F ∧ (start 0xE9).crc = 0xE9 ∧ (start 0x88).crc = 0x88 := by decide
theorem witness_upd_corners : -- a state and a byte for each corner case of UpdFoldsOneByte
    ((start 0x00).crc = 0x00 ∧ (0x00 : Byte) = 0x00) ∧ (0x5A : Byte) = (start 0x5A).crc ∧
    (start 0x5A).crc ^^^ 0xDA = 0x80 ∧ (start 0x5A).crc ^^^ 0x5B = 0x01 ∧
    (start 0x5A).crc ^^^ 0xA5 = 0xFF := by decide
theorem witness_crc_changes : crcAfter (step ((start 0x5A).present [⟨false, 0b10, 0x23, 0x00⟩])) ≠
    some (start 0x5A).crc := by decide
theorem witness_single_reads : (mapOutputs 0x51).kind = 2 ∧ (mapOutputs 0x52).kind = 2 ∧
    (mapOutputs 0x53).kind = 2 ∧ (mapOutputs 0x54).kind = 2 := by decide
theorem witness_no_single_read : (mapOutputs 0x50).kind ≠ 2 ∧ (mapOutputs 0x57).kind ≠ 2 := by decide
theorem witness_same_crc : start 0x5A ≠ { start 0x5A with draws := 1 } ∧
    (start 0x5A).crc = ({ start 0x5A with draws := 1 } : State).crc := by decide
theorem witness_zero_of_T : T 0x00 = 0x00 := by decide
theorem witness_operations_initupd : PresentsOperations
    [Line.inputs (.initupd 0x23), Line.inputsWith 0x57 .nop, Line.inputs (.upd 0x56)]
    (.initupd 0x23 :: [0x56].map .upd) := by decide
theorem witness_operations_init : PresentsOperations
    [Line.inputs .nop, Line.inputs .init, Line.inputs (.upd 0x56)]
    (.init 0x00 :: [0x56].map .upd) := by decide
theorem witness_operations_after_reset : PresentsOperations
    [Line.inputs (.upd 0x23), Line.inputs .nop, Line.inputs (.upd 0x56)]
    ([0x23, 0x56].map .upd) := by decide
theorem witness_residue_bytes : (0xE9 : Byte) = compute [0x23] ∧ (0xE8 : Byte) ≠ compute [0x23] := by
  decide +kernel
theorem witness_error_pattern : -- V-CRC-15: one bit, and the largest weight the statement covers
    (Frame.ofFields 0x23 0x23 0x56 0x00 0x00 0x6F).checksumCorrect ∧
    weight ((Frame.ofFields 0x00 0x00 0x01 0x00 0x00 0x00).bytes) = 1 ∧
    weight ((Frame.ofFields 0x80 0x00 0x01 0x00 0x00 0x01).bytes) = 3 := by decide +kernel
theorem witness_interruptions : (Line.inputs .rst).rst = true ∧ (Line.inputs .init).op = 0b01 ∧
    (Line.inputs (.initupd 0x23)).op = 0b11 := by decide
theorem witness_idle : ∀ inp ∈ [Line.inputs .nop, ⟨false, 0b00, 0xFF, 0x56⟩], inp.isNop = true := by
  decide
theorem witness_equal_lengths : -- V-CRC-21
    ([0x23, 0x23, 0x56, 0x00, 0x00] : List Byte).length =
      ([0x00, 0x00, 0x06, 0x12, 0x34] : List Byte).length := by decide
theorem witness_register_numbers : 0 < 8 ∧ 7 < 8 := by decide
theorem witness_valid_headers : -- one frame of each answer of the block
    validate (.ofFields 0x23 0x23 0x52 0x00 0x00 0xC4) = .ok ∧
    validate (.ofFields 0x23 0x23 0x52 0x00 0x00 0xC5) = .checksumMismatch := by decide +kernel
theorem witness_invalid_frame : validate (.ofFields 0x24 0x23 0x56 0x00 0x00 0x6F) ≠ .ok := by decide +kernel
theorem witness_six_bytes_are_a_frame :
    (Frame.ofBytes [0x23, 0x23, 0x50, 0x12, 0x34, 0xE3]) =
      some (.ofFields 0x23 0x23 0x50 0x12 0x34 0xE3) := by decide
theorem test_five_bytes_are_no_frame : Frame.ofBytes [0x23, 0x23, 0x50, 0x12, 0x34] = none := by decide

/-- A bus that answers every access alike. -/
def answeringBus : Bus := ⟨fun _ _ _ => some .failure, fun _ _ => some (0x01, 0x02)⟩

theorem witness_write_replies : -- both write commands, V-CRC-13
    validate (.ofFields 0x23 0x23 0x50 0x12 0x34 0xE3) = .ok ∧
    validate (.ofFields 0x23 0x23 0x55 0x10 0x00 0x85) = .ok ∧
    answeringBus.write 0x80 0x00 (0x12, 0x34) = some .failure ∧
    answeringBus.write 0x80 0x05 (0x10, 0x00) = some .failure := by decide +kernel
theorem witness_read_replies : -- the first and the last single read, and ReadAll, V-CRC-13
    validate (.ofFields 0x23 0x23 0x51 0x00 0x00 0x79) = .ok ∧
    validate (.ofFields 0x23 0x23 0x54 0x00 0x00 0xB9) = .ok ∧
    validate (.ofFields 0x23 0x23 0x56 0x00 0x00 0x6F) = .ok ∧
    (0x51 : Byte) ∈ ([0x51, 0x52, 0x53, 0x54] : List Byte) ∧
    (0x54 : Byte) ∈ ([0x51, 0x52, 0x53, 0x54] : List Byte) := by decide +kernel
theorem witness_every_read_answers :
    ∀ r, answeringBus.read 0x80 r = some ((fun _ => (0x01, 0x02) : Byte → Byte × Byte) r) :=
  fun _ => rfl
theorem test_failed_write_reply : -- R72, R127: writeStatus 1, no error reply
    replyOf (handleFrame .p1First answeringBus (.ofFields 0x23 0x23 0x55 0x10 0x00 0x85) blank) =
      some [0x23, 0x23, 0x55, 0x01] := by decide +kernel
theorem witness_valid_unknown_command :
    validate (.ofFields 0x23 0x23 0x57 0x00 0x00 0x04) = .ok ∧ (0x57 : Byte) ∉ Config.commandCodes := by
  decide +kernel

end Sys2Proof.Tests
end

/-! PROOFS. A step as the instructions its sampled inputs decode to (00_scope.md R10, 60_exceptions.md R124). -/

namespace Sys2Proof.Machine

/-- One step is the composition of the two units, each of which executes what its port decodes to. -/
theorem step_eq_andThen_exec (s : State) : step s =
    andThen (if s.sampled.rst then resetCrc s.afterSample
      else exec (decodeCtl s.sampled.ctl) s.afterSample) (exec (decodeCmd s.sampled.cmd)) := rfl

/-- Presented without reset, an input sample runs its control word's operation and then its command
byte's look-up, on the state with the later inputs still listed. -/
theorem step_present_of_rst_eq_false (s : State) (inp : Inputs) (rest : List Inputs)
    (hrst : inp.rst = false) : step (s.present (inp :: rest)) =
      andThen (exec (decodeCtl inp.ctl) (s.present rest)) (exec (decodeCmd inp.cmd)) := by
  rw [step_eq_andThen_exec, State.sampled_present_cons, State.afterSample_present_cons,
    if_neg (by simp [hrst])]

/-- Settles O9: the second clause is the step's composition of units; the first is its case of a
presented sample with `rst = 0`, after which nothing presented remains. -/
theorem stepRunsTheDecodedInstructions : Obligations.StepRunsTheDecodedInstructions := by
  refine ⟨?_, step_eq_andThen_exec⟩
  rintro s i j op din cmd rfl rfl
  rw [step_present_of_rst_eq_false s _ [] rfl, State.present_nil, Inputs.ctl]

end Sys2Proof.Machine

/-! PROOFS. The mapper's outputs for every command byte: the unknown row, the gathered form, and that
every look-up shows a legal combination (41_mapper.md R100 to R104, R112, R113). -/

namespace Sys2Proof.Machine

theorem mem_commandCodes_iff (c : Byte) : c ∈ Config.commandCodes ↔
    c = Config.CMD_CONFIGURE ∨ c = Config.CMD_READ_SHUNT_VOLTAGE ∨ c = Config.CMD_READ_BUS_VOLTAGE ∨
    c = Config.CMD_READ_POWER ∨ c = Config.CMD_READ_CURRENT ∨ c = Config.CMD_CALIBRATE ∨
    c = Config.CMD_READ_ALL := by
  simp [Config.commandCodes]

/-- Masking with `RMASK` keeps the low three bits (30_encoding.md R66). -/
theorem registerAddress_toNat (c : Byte) : (registerAddress c).toNat = c.toNat % 8 :=
  Nat.and_two_pow_sub_one_eq_mod c.toNat 3

/-- Those bits are the register-select field, zero-extended (30_encoding.md R64). -/
theorem registerAddress_eq_setWidth_rsel (c : Byte) :
    registerAddress c = (rsel c).setWidth Config.W := by
  apply BitVec.eq_of_toNat_eq
  rw [registerAddress_toNat, BitVec.toNat_setWidth_of_le (by decide)]
  rfl

/-- The known range of R102 is exactly the seven codes: they are consecutive. -/
theorem knownFlag_iff_mem (c : Byte) : knownFlag c = true ↔ c ∈ Config.commandCodes := by
  revert c; decide

theorem kindOf_of_not_mem {c : Byte} (h : c ∉ Config.commandCodes) : kindOf c = .none := by
  simp only [mem_commandCodes_iff, not_or] at h
  simp [kindOf, h]

/-- The unknown row (R112): the register address is still computed. -/
theorem mapOutputs_of_not_mem {c : Byte} (h : c ∉ Config.commandCodes) :
    mapOutputs c = ⟨registerAddress c, Config.DEV_ADDR, false, 0, 0⟩ := by
  have hknown : knownFlag c = false := by rwa [← Bool.not_eq_true, knownFlag_iff_mem]
  simp [mapOutputs, snapshotOffset, kindOf_of_not_mem h, hknown, kindCode]

theorem mapGathered_of_not_mem {c : Byte} (h : c ∉ Config.commandCodes) :
    mapGathered c = ⟨(rsel c).setWidth Config.W, Config.DEV_ADDR, false, 0, 0⟩ := by
  simp only [mem_commandCodes_iff, not_or] at h
  simp [mapGathered, h]

/-- The mapper output by output is the mapper as R113 gathers it. -/
theorem mapOutputs_eq_mapGathered (c : Byte) : mapOutputs c = mapGathered c := by
  by_cases h : c ∈ Config.commandCodes
  · rcases (mem_commandCodes_iff c).mp h with rfl | rfl | rfl | rfl | rfl | rfl | rfl <;> decide
  · rw [mapOutputs_of_not_mem h, mapGathered_of_not_mem h, registerAddress_eq_setWidth_rsel]

/-- Every look-up drives a legal combination of the mapper's ports. -/
theorem mapOutputs_legal (c : Byte) : (mapOutputs c).Legal := by
  by_cases h : c ∈ Config.commandCodes
  · rcases (mem_commandCodes_iff c).mp h with rfl | rfl | rfl | rfl | rfl | rfl | rfl <;>
      constructor <;> decide
  · rw [mapOutputs_of_not_mem h]
    exact {
      regAddr_small := registerAddress_toNat c ▸ Nat.mod_lt _ (by decide)
      devAddr_fixed := rfl
      known_iff_class := by simp
      single_read := fun hk => absurd hk (by simp)
      no_slot := fun _ => rfl
      write_register := fun hk => absurd hk (by simp)
      readall_masked := fun hk => absurd hk (by simp) }

end Sys2Proof.Machine

/-! PROOFS. What a step leaves, from any state: its inversion, the zero flag, the ports, the four
operations of the next-state function (10_state.md R21 to R28). -/

namespace Sys2Proof.Machine

/-- If a step answers `t`, then `t` is what the two units leave of the sampled state. -/
theorem eq_afterUnits_of_step {s t : State} (h : step s = .next t) :
    t = afterUnits s.sampled s.afterSample :=
  (Host.Outcome.next.inj ((step_eq s).symm.trans h)).symm

/-- A step with one presented input leaves nothing of it listed. -/
theorem step_present_singleton (s : State) (inp : Inputs) :
    step (s.present [inp]) = .next (afterUnits inp s) := step_present s inp []

@[simp] theorem State.crcOut_eq_crc (s : State) : s.crcOut = s.crc := rfl

theorem State.crcZero_eq_beq (s : State) : s.crcZero = (s.crc == 0x00) := rfl

theorem State.crcZero_iff (s : State) : s.crcZero = true ↔ s.crc = 0x00 := beq_iff_eq

@[simp] theorem State.afterSample_crcZero (s : State) : s.afterSample.crcZero = s.crcZero :=
  congrArg zeroFlag s.afterSample_crc

/-- Whatever the ports showed, the units overwrite them with a legal combination. -/
theorem afterUnits_portsLegal (inp : Inputs) (s : State) : (afterUnits inp s).PortsLegal where
  crc := s.crcZero_iff
  mapper := mapOutputs_legal inp.cmd

/-- The units read no port value, and neither does the sampling of inputs. -/
theorem step_with_ports (s : State) (p : CrcPorts) (q : MapPorts) :
    step { s with crcPorts := p, mapPorts := q } = step s := by
  have hsample : (State.afterSample { s with crcPorts := p, mapPorts := q }) =
      { s.afterSample with crcPorts := p, mapPorts := q } := by
    unfold State.afterSample; cases s.pending <;> rfl
  rw [step_eq, step_eq, hsample]; rfl

theorem nextCrc_nop (din crc : Byte) : nextCrc false Config.OP_NOP din crc = crc := rfl
theorem nextCrc_upd (din crc : Byte) : nextCrc false Config.OP_UPD din crc = T (crc ^^^ din) := rfl
theorem nextCrc_initupd (din crc : Byte) : nextCrc false Config.OP_INITUPD din crc = T din := rfl

/-- The running value along presented inputs is the next-state function folded over them. -/
theorem afterInputs_crc (ins : List Inputs) (s : State) : (afterInputs ins s).crc =
    ins.foldl (fun c inp => nextCrc inp.rst inp.op inp.din c) s.crc := by
  induction ins generalizing s with
  | nil => rfl
  | cons inp ins ih => exact ih _

/-- After a last presented input, the state is what the units leave with it. -/
theorem afterInputs_concat (ins : List Inputs) (inp : Inputs) (s : State) :
    afterInputs (ins ++ [inp]) s = afterUnits inp (afterInputs ins s) := afterInputs_append ins [inp] s

/-- Settles O34: every port is overwritten in every step, so no premise on the state before is needed. -/
theorem everyStepLeavesLegalPorts : Obligations.EveryStepLeavesLegalPorts := by
  intro s t h
  rw [eq_afterUnits_of_step h]
  exact afterUnits_portsLegal _ _

/-- Settles O35: the mapper's reset values are those of the look-up of `cmd = 0x00`. -/
theorem resetPortsAreLegal : Obligations.ResetPortsAreLegal where
  crc := State.reset.crcZero_iff
  mapper := by
    have hreset : State.reset.mapPorts = mapOutputs Config.CMD_OMITTED := by decide
    rw [hreset]
    exact mapOutputs_legal _

/-- Settles O1: `crc` after reset is the checksum's own initial value, so UPD alone feeds a message. -/
theorem resetValueStartsAMessage : Obligations.ResetValueStartsAMessage :=
  ⟨rfl, rfl, rfl, rfl, rfl, fun bs =>
    ⟨_, runInputs_eq _ _, afterInputs_feed_crc bs State.reset⟩⟩

/-- Settles O4: the step of a presented input, with the mapper's outputs in their gathered form. -/
theorem everyInputCombinationIsLegal : Obligations.EveryInputCombinationIsLegal := by
  intro s rst op din cmd
  rw [step_present_singleton, ← mapOutputs_eq_mapGathered]; rfl

/-- Settles O6: each step's CRC ports show the value before its commit; the example is INITUPD and
then UPD of `0x23`, whose values are `T 0x23 = 0xE9` and `T 0xCA = 0x78`. -/
theorem outputsShowTheStartOfTheStep : Obligations.OutputsShowTheStartOfTheStep := by
  refine ⟨fun s inp inp' => ⟨rfl, _, _, step_present_singleton _ _, step_present_singleton _ _,
    rfl, rfl, rfl, rfl, mapOutputs_eq_mapGathered inp.cmd⟩, fun s => ?_⟩
  refine ⟨_, _, _, step_present_singleton _ _, step_present_singleton _ _,
    step_present_singleton _ _, ?_, ?_⟩ <;>
    simp only [afterUnits_crcPorts, State.crcOut_eq_crc, afterUnits_crc, Line.inputs, Line.inputsWith,
      nextCrc_initupd, nextCrc_upd] <;> decide

/-- Settles O7: the flag is a function of `crc` alone, and a step reads no stored port. -/
theorem zeroFlagFollowsCrc : Obligations.ZeroFlagFollowsCrc := by
  refine ⟨rfl, State.crcZero_iff, fun s t h => ⟨?_, ?_⟩, step_with_ports⟩
  · rw [eq_afterUnits_of_step h, afterUnits_crcPorts, State.afterSample_crcZero]
  · rw [Ne, Bool.eq_iff_iff, State.crcZero_iff, State.crcZero_iff]

/-- Settles O11: with nothing pending a step runs on the drawn inputs and counts the draw. -/
theorem unlistedInputsAreDrawn : Obligations.UnlistedInputsAreDrawn := by
  intro s hpending
  refine ⟨_, step_eq s, ?_⟩
  rw [State.sampled_nil hpending, State.afterSample_nil hpending]
  exact ⟨rfl, mapOutputs_eq_mapGathered _, rfl, hpending, rfl⟩

/-- Settles O24: without a reset the operation code is one of four, and NOP keeps `crc`. -/
theorem onlyFourWritersOfCrc : Obligations.OnlyFourWritersOfCrc := by
  rintro s ⟨rst, op, din, cmd⟩
  refine ⟨_, step_present_singleton _ _, fun hchange => ?_⟩
  cases rst with
  | true => exact .inl rfl
  | false =>
    rcases opCode_cases op with rfl | rfl | rfl | rfl
    · exact absurd (nextCrc_nop din s.crc) hchange
    · exact .inr (.inl (decodeCtl_init din))
    · exact .inr (.inr (.inl (decodeCtl_upd din)))
    · exact .inr (.inr (.inr (decodeCtl_initupd din)))

/-- Settles O33: `crc` before the last step is a fold from the common value, and the last step's
outputs and commit depend on it and on the input alone. -/
theorem nothingIsHidden : Obligations.NothingIsHidden := by
  intro s s' ins inp hcrc
  have hbefore : (afterInputs ins s).crc = (afterInputs ins s').crc := by
    rw [afterInputs_crc, afterInputs_crc, hcrc]
  refine ⟨_, _, runInputs_eq _ _, runInputs_eq _ _, ?_⟩
  simp [afterInputs_concat, State.crcZero_eq_beq, hbefore]

end Sys2Proof.Machine

/-! PROOFS. The registers and snapshot slots the mapper points at, and what the caller's accesses
through them come to (20_memory.md R40 to R48, 41_mapper.md R103, R111). -/

namespace Sys2Proof.Machine

/-! ### The command bytes of each class -/

theorem mem_subReads_iff (c : Byte) : c ∈ subReads ↔
    c = Config.CMD_READ_SHUNT_VOLTAGE ∨ c = Config.CMD_READ_BUS_VOLTAGE ∨
    c = Config.CMD_READ_POWER ∨ c = Config.CMD_READ_CURRENT := by
  simp [subReads]

/-- A single read is one of the four commands ReadAll presents. -/
theorem kindOf_eq_read1_iff (c : Byte) : kindOf c = .read1 ↔ c ∈ subReads := by
  revert c; decide

theorem kindOf_eq_write_iff (c : Byte) :
    kindOf c = .write ↔ c = Config.CMD_CONFIGURE ∨ c = Config.CMD_CALIBRATE := by
  revert c; decide

/-- The port `kind` shows READ1 for the same commands. -/
theorem mapOutputs_kind_eq_two_iff (c : Byte) : (mapOutputs c).kind = 2 ↔ c ∈ subReads := by
  rw [← kindOf_eq_read1_iff]
  change kindCode (kindOf c) = 2 ↔ _
  cases kindOf c <;> decide

/-! ### Accesses on the bus -/

/-- The bus refuses exactly the registers without a name (D33). -/
theorem busAccess_eq_refused_iff {α : Type} (reg : Byte) (answer : Option α) (r : SensorRegister) :
    busAccess reg answer = .refused r ↔
      sensorRegister (rsel reg) = r ∧ (sensorRegister (rsel reg)).named = false := by
  cases hnamed : (sensorRegister (rsel reg)).named with
  | false => simp [busAccess, hnamed]
  | true => cases answer <;> simp [busAccess, hnamed]

theorem busAccess_ne_refused {α : Type} {reg : Byte} (answer : Option α) (r : SensorRegister)
    (hnamed : (sensorRegister (rsel reg)).named = true) : busAccess reg answer ≠ .refused r := by
  simp [busAccess_eq_refused_iff, hnamed]

theorem busAccess_some {α : Type} {reg : Byte} (a : α)
    (hnamed : (sensorRegister (rsel reg)).named = true) :
    busAccess reg (some a) = .answered a := by
  simp [busAccess, hnamed]

/-- The four single reads address registers 1 to 4, which the source names. -/
theorem named_of_mem_subReads {c : Byte} (h : c ∈ subReads) :
    (sensorRegister (rsel (mapOutputs c).regAddr)).named = true := by
  rcases (mem_subReads_iff c).mp h with rfl | rfl | rfl | rfl <;> decide

/-- The write commands address registers 0 and 5, which the source names. -/
theorem named_of_kindOf_eq_write {c : Byte} (h : kindOf c = .write) :
    (sensorRegister (rsel (mapOutputs c).regAddr)).named = true := by
  rcases (kindOf_eq_write_iff c).mp h with rfl | rfl <;> decide

/-! ### No access is refused -/

theorem readRegister_ne_refused (bus : Bus) {c : Byte} (h : c ∈ subReads) (snap : Snapshot)
    (r : SensorRegister) : readRegister bus c snap ≠ .refused r := by
  unfold readRegister
  dsimp only
  split
  case h_3 hq => exact absurd hq (busAccess_ne_refused _ _ (named_of_mem_subReads h))
  all_goals simp

theorem readRegisters_ne_refused (bus : Bus) {cmds : List Byte} (h : cmds ⊆ subReads)
    (snap : Snapshot) (r : SensorRegister) : readRegisters bus cmds snap ≠ .refused r := by
  induction cmds generalizing snap with
  | nil => simp [readRegisters]
  | cons c cmds ih =>
    obtain ⟨hc, hcmds⟩ := List.cons_subset.mp h
    unfold readRegisters
    split
    case h_1 snap' _ => exact ih hcmds snap'
    case h_2 => simp
    case h_3 hq => exact absurd hq (readRegister_ne_refused bus hc _ _)

theorem readAll_ne_refused (bus : Bus) (snap : Snapshot) (r : SensorRegister) :
    readAll bus snap ≠ .refused r := readRegisters_ne_refused bus (List.Subset.refl _) snap r

/-- The dispatcher accesses the bus for a write, for a single read and for the four sub-reads of
ReadAll, never at the mask result 6 of ReadAll itself. -/
theorem dispatch_ne_refused (order : WriteByteOrder) (bus : Bus) (f : Frame) (snap : Snapshot)
    (r : SensorRegister) : dispatch order bus f snap ≠ .refused r := by
  unfold dispatch
  cases hk : kindOf f.command with
  | none => simp
  | write =>
    dsimp only
    split
    case h_3 hq => exact absurd hq (busAccess_ne_refused _ _ (named_of_kindOf_eq_write hk))
    all_goals simp
  | read1 =>
    dsimp only
    split
    case h_3 hq =>
      exact absurd hq (readRegister_ne_refused bus ((kindOf_eq_read1_iff _).mp hk) _ _)
    all_goals simp
  | readall =>
    dsimp only
    split
    case h_3 hq => exact absurd hq (readAll_ne_refused bus _ _)
    all_goals simp

/-! ### What ReadAll leaves in the snapshot -/

/-- A single read that the bus answers fills its slot. -/
theorem readRegister_of_read {bus : Bus} {c : Byte} (h : c ∈ subReads) {bytes : Byte × Byte}
    (hread : bus.read Config.DEV_ADDR (registerAddress c) = some bytes) (snap : Snapshot) :
    readRegister bus c snap = .answered (snap.writeSlot (snapshotOffset c) bytes) := by
  have hbus : busAccess (mapOutputs c).regAddr
      (bus.read (mapOutputs c).devAddr (mapOutputs c).regAddr) = .answered bytes := by
    rw [← busAccess_some bytes (named_of_mem_subReads h), ← hread]; rfl
  simp only [readRegister, hbus]; rfl

theorem readRegisters_cons_of_answered {bus : Bus} {c : Byte} {snap snap' : Snapshot}
    (h : readRegister bus c snap = .answered snap') (cmds : List Byte) :
    readRegisters bus (c :: cmds) snap = readRegisters bus cmds snap' := by
  simp [readRegisters, h]

/-- Four reads that answer, each from the snapshot the one before leaves, make up ReadAll. -/
theorem readAll_of_answered {bus : Bus} {snap s1 s2 s3 s4 : Snapshot}
    (h1 : readRegister bus Config.CMD_READ_SHUNT_VOLTAGE snap = .answered s1)
    (h2 : readRegister bus Config.CMD_READ_BUS_VOLTAGE s1 = .answered s2)
    (h3 : readRegister bus Config.CMD_READ_POWER s2 = .answered s3)
    (h4 : readRegister bus Config.CMD_READ_CURRENT s3 = .answered s4) :
    readAll bus snap = .answered s4 := by
  rw [readAll, subReads, readRegisters_cons_of_answered h1, readRegisters_cons_of_answered h2,
    readRegisters_cons_of_answered h3, readRegisters_cons_of_answered h4, readRegisters]

theorem Snapshot.toList_writeSlot (snap : Snapshot) (off : BitVec 3) (bytes : Byte × Byte) :
    (snap.writeSlot off bytes).toList =
      (snap.toList.set off.toNat bytes.1).set (off.toNat + 1) bytes.2 := by
  simp [Snapshot.writeSlot, Vector.toList]

/-- The four slots tile the snapshot: writing all of them leaves nothing of what it held. -/
theorem Snapshot.toList_writeSlot_all (snap : Snapshot) (a b c d : Byte × Byte) :
    ((((snap.writeSlot 0 a).writeSlot 2 b).writeSlot 4 c).writeSlot 6 d).toList =
      [a.1, a.2, b.1, b.2, c.1, c.2, d.1, d.2] := by
  simp only [Snapshot.toList_writeSlot]
  match snap.toList, snap.length_toList with
  | [_, _, _, _, _, _, _, _], _ => rfl

/-! ### The statements -/

/-- Settles O51: every look-up masks its command byte to three bits, and the bytes 0 to 7 are left as
they are by the mask. -/
theorem registerNumbersReached : Obligations.RegisterNumbersReached := by
  refine ⟨fun s c => ⟨_, mapperUnit_eq ⟨false, 0, 0, c⟩ s, (mapOutputs_legal c).regAddr_small⟩,
    fun n hn => ⟨BitVec.ofNat Config.W n, ?_⟩, by decide⟩
  have hsmall : n < 2 ^ Config.W := hn.trans (by decide)
  calc (registerAddress (BitVec.ofNat Config.W n)).toNat
      = (BitVec.ofNat Config.W n).toNat % 8 := registerAddress_toNat _
    _ = n := by rw [BitVec.toNat_ofNat, Nat.mod_eq_of_lt hsmall, Nat.mod_eq_of_lt hn]

/-- Settles O55: an invalid frame accesses nothing, and the dispatcher only what the source names. -/
theorem unnamedRegistersAreNeverAccessed : Obligations.UnnamedRegistersAreNeverAccessed := by
  intro order bus f snap r
  unfold handleFrame
  split
  · exact dispatch_ne_refused order bus f snap r
  · simp

/-- Settles O56: each single read answers with its register's bytes in its slot, and the four slots
make up the snapshot. -/
theorem readAllIsFourSingleReads : Obligations.ReadAllIsFourSingleReads := by
  intro write v snap bus
  have hread (c : Byte) (h : c ∈ subReads) (s : Snapshot) :
      readRegister bus c s = .answered (s.writeSlot (snapshotOffset c) (v (registerAddress c))) :=
    readRegister_of_read h rfl s
  have h1 := hread Config.CMD_READ_SHUNT_VOLTAGE (by decide)
  have h2 := hread Config.CMD_READ_BUS_VOLTAGE (by decide)
  have h3 := hread Config.CMD_READ_POWER (by decide)
  have h4 := hread Config.CMD_READ_CURRENT (by decide)
  exact ⟨_, _, _, _, h1 snap, h2 _, h3 _, h4 _,
    readAll_of_answered (h1 snap) (h2 _) (h3 _) (h4 _),
    Snapshot.toList_writeSlot_all snap _ _ _ _⟩

/-- Settles O50: `kind` is READ1 for the four single reads alone, whose slots are read off the layout. -/
theorem snapshotOffsetsMatchRegisters : Obligations.SnapshotOffsetsMatchRegisters := by
  refine ⟨rfl, by decide, rfl, rfl, rfl, rfl, fun c hkind => ?_⟩
  rcases (mem_subReads_iff c).mp ((mapOutputs_kind_eq_two_iff c).mp hkind) with
    rfl | rfl | rfl | rfl <;> decide

end Sys2Proof.Machine

/-! PROOFS. The encodings: words and their bytes, decoding of encodings, the opcode table
(30_encoding.md R60 to R68). -/

namespace Sys2Proof

/-! ### Decoding and encoding on a port -/

/-- The unknown row answers exactly the bytes that are no code (R68). -/
theorem decodeCmd_eq_mapUnknown_iff (c : Byte) :
    decodeCmd c = .mapUnknown c ↔ c ∉ Config.commandCodes := by
  rcases decodeCmd_cases c with ⟨rfl, _⟩ | ⟨rfl, _⟩ | ⟨rfl, _⟩ | ⟨rfl, _⟩ | ⟨rfl, _⟩ | ⟨rfl, _⟩ |
    ⟨rfl, _⟩ | ⟨hc, hd⟩
  case' inr.inr.inr.inr.inr.inr.inr => exact iff_of_true hd hc
  all_goals decide

theorem Instr.wellFormed_mapUnknown_iff (c : Byte) :
    (Instr.mapUnknown c).WellFormed ↔ c ∉ Config.commandCodes := decide_eq_true_iff

/-- On a port, decoding undoes encoding. -/
theorem decodeWord_encode {i : Instr} (h : i.WellFormed) : decodeWord (encode i) = i := by
  cases i with
  | nop din => exact decodeCtl_nop din
  | init din => exact decodeCtl_init din
  | upd din => exact decodeCtl_upd din
  | initupd din => exact decodeCtl_initupd din
  | mapUnknown c =>
    exact (decodeCmd_eq_mapUnknown_iff c).mpr ((Instr.wellFormed_mapUnknown_iff c).mp h)
  | _ => rfl

/-- Every control word is one of the four operations with its byte (R61, R62). -/
theorem exists_controlWord (w : ControlWord) : ∃ din,
    w = controlWord Config.OP_NOP din ∨ w = controlWord Config.OP_INIT din ∨
    w = controlWord Config.OP_UPD din ∨ w = controlWord Config.OP_INITUPD din := by
  refine ⟨dinField w, ?_⟩
  have hw := controlWord_fields w
  rcases opCode_cases (opField w) with h | h | h | h <;> rw [h] at hw <;> simp [hw]

theorem encode_decodeCtl (w : ControlWord) : encode (decodeCtl w) = .ctl w := by
  obtain ⟨din, rfl | rfl | rfl | rfl⟩ := exists_controlWord w
  · rw [decodeCtl_nop, encode]
  · rw [decodeCtl_init, encode]
  · rw [decodeCtl_upd, encode]
  · rw [decodeCtl_initupd, encode]

theorem encode_decodeCmd (c : Byte) : encode (decodeCmd c) = .cmd c := by
  rcases decodeCmd_cases c with ⟨rfl, hd⟩ | ⟨rfl, hd⟩ | ⟨rfl, hd⟩ | ⟨rfl, hd⟩ | ⟨rfl, hd⟩ |
    ⟨rfl, hd⟩ | ⟨rfl, hd⟩ | ⟨_, hd⟩ <;> rw [hd, encode]

/-- On a port, encoding undoes decoding: no two words of a port decode to the same instruction. -/
theorem encode_decodeWord (w : PortWord) : encode (decodeWord w) = w := by
  cases w with
  | ctl w => exact encode_decodeCtl w
  | cmd c => exact encode_decodeCmd c

/-- The decoder answers instructions of the hardware only. -/
theorem decodeWord_wellFormed (w : PortWord) : (decodeWord w).WellFormed := by
  cases w with
  | ctl w =>
    obtain ⟨din, rfl | rfl | rfl | rfl⟩ := exists_controlWord w
    · rw [decodeWord, decodeCtl_nop]; rfl
    · rw [decodeWord, decodeCtl_init]; rfl
    · rw [decodeWord, decodeCtl_upd]; rfl
    · rw [decodeWord, decodeCtl_initupd]; rfl
  | cmd c =>
    rw [decodeWord]
    rcases decodeCmd_cases c with ⟨_, hd⟩ | ⟨_, hd⟩ | ⟨_, hd⟩ | ⟨_, hd⟩ | ⟨_, hd⟩ |
      ⟨_, hd⟩ | ⟨_, hd⟩ | ⟨hc, hd⟩ <;> rw [hd]
    case' inr.inr.inr.inr.inr.inr.inr => exact (Instr.wellFormed_mapUnknown_iff c).mpr hc
    all_goals rfl

/-! ### Words as bytes (log 6) -/

/-- The bits above `ctl[9]` in the byte layout are zero, and the two below are `op`. -/
theorem extractLsb'_setWidth_opCode (op : OpCode) :
    (op.setWidth Config.W).extractLsb' 2 6 = 0 ∧ (op.setWidth Config.W).extractLsb' 0 2 = op := by
  revert op; decide

/-- The bytes of a word are read back as that word. -/
theorem PortWord.ofBytes_toBytes (w : PortWord) : PortWord.ofBytes w.toBytes = .ok w := by
  cases w with
  | ctl w =>
    obtain ⟨hhigh, hlow⟩ := extractLsb'_setWidth_opCode (opField w)
    rw [PortWord.toBytes, PortWord.ofBytes, if_pos hhigh, hlow, controlWord_fields]
  | cmd c => rfl

theorem decode_toBytes (w : PortWord) : decode w.toBytes = .ok (decodeWord w) := by
  rw [decode, PortWord.ofBytes_toBytes]; rfl

/-- Settles O14: decoding undoes encoding on the port, and the bytes of a word are read back. -/
theorem decodeOfEncode : Obligations.DecodeOfEncode := by
  intro i hwf
  refine ⟨decodeWord_encode hwf, ?_⟩
  rw [decode_toBytes, decodeWord_encode hwf]

/-! ### Control words -/

/-- Every instruction has a meaning in every state (60_exceptions.md R120). -/
theorem Machine.exec_completes (i : Instr) (s : State) : ∃ t, exec i s = .next t := by
  cases i <;> exact ⟨_, rfl⟩

/-- Settles O15: encoding undoes decoding, so a word has its decoding as an encoder's preimage, and
decoding undoes encoding, so it has no other. -/
theorem everyControlWordHasOneMeaning : Obligations.EveryControlWordHasOneMeaning := by
  refine fun w => ⟨decodeWord_wellFormed (.ctl w), encode_decodeCtl w, fun i hwf henc => ?_,
    Machine.exec_completes (decodeCtl w)⟩
  calc i = decodeWord (encode i) := (decodeWord_encode hwf).symm
    _ = decodeCtl w := by rw [henc, decodeWord]

/-! ### The opcode table -/

/-- An encoded instruction is looked up under its own mnemonic: one law per row. -/
theorem tableLookup_encode (i : Instr) : Laws.TableRow.Statement i := by
  cases i with
  | nop din => exact Laws.TableRow.nop din
  | init din => exact Laws.TableRow.init din
  | upd din => exact Laws.TableRow.upd din
  | initupd din => exact Laws.TableRow.initupd din
  | mapConfigure => exact Laws.TableRow.mapConfigure
  | mapReadShuntVoltage => exact Laws.TableRow.mapReadShuntVoltage
  | mapReadBusVoltage => exact Laws.TableRow.mapReadBusVoltage
  | mapReadPower => exact Laws.TableRow.mapReadPower
  | mapReadCurrent => exact Laws.TableRow.mapReadCurrent
  | mapCalibrate => exact Laws.TableRow.mapCalibrate
  | mapReadAll => exact Laws.TableRow.mapReadAll
  | mapUnknown c => exact Laws.TableRow.mapUnknown c

theorem tableLookup_mnemonic (w : PortWord) :
    (tableLookup w).map TableRow.mnemonic = some (decodeWord w).mnemonic := by
  have h := tableLookup_encode (decodeWord w) (decodeWord_wellFormed w)
  rwa [encode_decodeWord] at h

/-- Two rows that one word belongs to have the same format, and their patterns agree on the bits that
both masks keep. -/
theorem TableRow.agree_of_matchesWord {r r' : TableRow} {w : PortWord}
    (h : r.matchesWord w = true) (h' : r'.matchesWord w = true) :
    r.format = r'.format ∧ r.pattern &&& r'.mask = r'.pattern &&& r.mask := by
  cases w <;>
  · simp only [TableRow.matchesWord, Bool.and_eq_true, beq_iff_eq] at h h'
    obtain ⟨hformat, hpattern⟩ := h
    obtain ⟨hformat', hpattern'⟩ := h'
    refine ⟨hformat.trans hformat'.symm, ?_⟩
    rw [← hpattern, ← hpattern', Nat.and_right_comm]

/-- The rows above the unknown row differ pairwise in format or on bits that both masks keep. -/
theorem opcodeTable_dropLast_pairwise : opcodeTable.dropLast.Pairwise (fun r r' =>
    ¬ (r.format = r'.format ∧ r.pattern &&& r'.mask = r'.pattern &&& r.mask)) := by
  decide

/-- Settles O16: every word is the encoding of its decoding, which the table looks up under its own
row, and rows that differ on bits both masks keep share no word. -/
theorem decoderAgreesWithTheOpcodeTable : Obligations.DecoderAgreesWithTheOpcodeTable :=
  ⟨tableLookup_mnemonic, decodeCmd_eq_mapUnknown_iff, rfl,
    opcodeTable_dropLast_pairwise.imp fun hdiffer _ ⟨h, h'⟩ =>
      hdiffer (TableRow.agree_of_matchesWord h h')⟩

end Sys2Proof

/-! PROOFS. How a table word and an assembler line are presented (30_encoding.md R73; log 5 and 6). -/

namespace Sys2Proof.Machine

/-- A control word numbered in 16 bits has the bytes of that word on the port. -/
theorem tableBytes_controlWord (w : ControlWord) :
    tableBytes 16 w.toNat = (PortWord.ctl w).toBytes := by
  have hlt : w.toNat < 2 ^ 10 := w.isLt
  have hbytes : tableBytes 16 w.toNat =
      [BitVec.ofNat 8 w.toNat, BitVec.ofNat 8 (w.toNat / 2 ^ 8)] := by
    rw [tableBytes, Nat.mod_eq_of_lt (by omega)]; rfl
  have hlow : BitVec.ofNat 8 w.toNat = dinField w := rfl
  have hhigh : BitVec.ofNat 8 (w.toNat / 2 ^ 8) = (opField w).setWidth 8 := by
    apply BitVec.eq_of_toNat_eq
    have hop : w.toNat / 2 ^ 8 % 4 = w.toNat / 2 ^ 8 := Nat.mod_eq_of_lt (by omega)
    simp [opField, BitVec.extractLsb'_toNat, Nat.shiftRight_eq_div_pow, hop]
  rw [hbytes, hlow, hhigh, PortWord.toBytes]

/-- So does a command byte numbered in 8 bits. -/
theorem tableBytes_commandByte (c : Byte) : tableBytes 8 c.toNat = (PortWord.cmd c).toBytes := by
  have hlow : BitVec.ofNat 8 c.toNat = c := by simp
  rw [tableBytes, Nat.mod_eq_of_lt c.isLt, PortWord.toBytes]
  exact congrArg (fun b => [b]) hlow

/-- A number whose bytes are those of a word on a port decodes as that word. -/
theorem decodeTableWord_of_tableBytes {nbits n : Nat} {w : PortWord}
    (h : tableBytes nbits n = w.toBytes) : decodeTableWord nbits n = some (decodeWord w) := by
  rw [decodeTableWord, h, decode_toBytes]; rfl

/-- The step after such a number is presented runs both instructions of the word's inputs. -/
theorem step_withFetchWord {nbits n : Nat} {w : PortWord} (h : tableBytes nbits n = w.toBytes)
    (s : State) : step (s.withFetchWord nbits n) =
      andThen (exec (decodeCtl (Inputs.ofPortWord w).ctl) s)
        (exec (decodeCmd (Inputs.ofPortWord w).cmd)) := by
  have hinputs : inputsOfTableWord nbits n = [Inputs.ofPortWord w] := by
    simp [inputsOfTableWord, h, PortWord.ofBytes_toBytes]
  have hrst : (Inputs.ofPortWord w).rst = false := by cases w <;> rfl
  rw [State.withFetchWord, hinputs, step_present_of_rst_eq_false s _ [] hrst, State.present_nil]

/-- Settles O10: the bytes of a table word are those of the word on its port, whose inputs carry the
omitted command byte, an unknown one, or a NOP of the omitted `din`. -/
theorem fetchWordIsRunNext : Obligations.FetchWordIsRunNext := by
  refine ⟨fun s w => ?_, fun s c => ?_⟩
  · have hbytes := tableBytes_controlWord w
    have hctl : (Inputs.ofPortWord (.ctl w)).ctl = w := controlWord_fields w
    refine ⟨decodeTableWord_of_tableBytes hbytes, ?_⟩
    rw [step_withFetchWord hbytes, hctl]; rfl
  · have hbytes := tableBytes_commandByte c
    refine ⟨decodeTableWord_of_tableBytes hbytes, ?_⟩
    have hctl : (Inputs.ofPortWord (.cmd c)).ctl = controlWord Config.OP_NOP 0x00 := rfl
    rw [step_withFetchWord hbytes, hctl, decodeCtl_nop]; rfl

/-- Settles O13: each word as its bits are printed, through its two bytes or its one. -/
theorem wordsDecodeAsPrinted : Obligations.WordsDecodeAsPrinted := by
  unfold Obligations.WordsDecodeAsPrinted; decide

/-- Settles O17: a line's inputs by its definition, and the control words written out. -/
theorem assemblerLineInputs : Obligations.AssemblerLineInputs :=
  ⟨fun _ => ⟨⟨_, rfl⟩, ⟨_, rfl⟩, fun _ => rfl, fun _ => rfl, rfl, rfl⟩, fun _ => rfl,
    by decide, by decide, by decide, by decide⟩

end Sys2Proof.Machine

/-! PROOFS. Frames, their residue, and what the pseudo-instructions leave (30_encoding.md R69, R70,
R74). -/

namespace Sys2Proof.Machine

/-! ### When the byte update is zero -/

/-- One iteration of the bit loop loses no bit: a bit shifted out comes back as the polynomial. -/
theorem bitStep_eq_zero_iff (v : Byte) : bitStep v = 0 ↔ v = 0 := by
  revert v; decide

theorem bitLoop_eq_zero_iff (n : Nat) (v : Byte) : bitLoop n v = 0 ↔ v = 0 := by
  induction n generalizing v with
  | zero => rfl
  | succ n ih => rw [bitLoop, ih, bitStep_eq_zero_iff]

/-- The byte update is zero exactly for equal operands (40_crc.md R89). -/
theorem upd_eq_zero_iff (c b : Byte) : upd c b = 0 ↔ c = b := by
  rw [upd, T, bitLoop_eq_zero_iff]
  exact BitVec.xor_eq_zero_iff

/-! ### Frames -/

theorem Frame.covered_eq (f : Frame) :
    f.covered = [f.header1, f.header2, f.command, f.param1, f.param2] := by
  obtain ⟨h1, h2, c, p1, p2, k, rfl⟩ := f.exists_fields
  rfl

/-- The checksum is the one byte that it does not cover (R70). -/
theorem Frame.bytes_eq_covered_append (f : Frame) : f.bytes = f.covered ++ [f.checksum] := by
  obtain ⟨h1, h2, c, p1, p2, k, rfl⟩ := f.exists_fields
  rfl

/-- The residue of a whole frame is zero exactly if its checksum is the one of the bytes it covers
(40_crc.md R90). -/
theorem Frame.compute_bytes_eq_zero_iff (f : Frame) :
    compute f.bytes = 0 ↔ f.checksum = compute f.covered := by
  rw [f.bytes_eq_covered_append, compute_append, fold_cons, fold_nil, upd_eq_zero_iff, eq_comm]

theorem Frame.isSome_ofBytes (bytes : List Byte) :
    (Frame.ofBytes bytes).isSome = true ↔ bytes.length = 6 := by
  unfold Frame.ofBytes
  split
  case isTrue hlength => exact iff_of_true rfl hlength
  case isFalse hlength => exact iff_of_false Bool.false_ne_true hlength

theorem Frame.bytes_of_ofBytes {bytes : List Byte} {f : Frame} (h : Frame.ofBytes bytes = some f) :
    f.bytes = bytes := by
  unfold Frame.ofBytes at h
  split at h
  case isTrue => cases h; rfl
  case isFalse => cases h

/-- Settles O57: a frame is a byte sequence of the one length, cut before its last byte. -/
theorem frameLayout : Obligations.FrameLayout :=
  ⟨Frame.isSome_ofBytes, fun _ _ => Frame.bytes_of_ofBytes,
    fun f => ⟨f.covered_eq, f.bytes_eq_covered_append⟩⟩

/-! ### The pseudo-instructions -/

/-- In the step after the expansion of CRC the ports show the checksum and its flag (R74). -/
theorem step_after_crcLines_crcPorts (s : State) (bs : List Byte) (inp : Inputs) :
    (afterUnits inp (afterInputs (assemble (crcLines bs)) s)).crcPorts =
      ⟨compute bs, zeroFlag (compute bs)⟩ := by
  rw [afterUnits_crcPorts, State.crcZero, State.crcOut, afterInputs_crcLines_crc]

/-- MAP leaves `crc` and shows the look-up in its own step (R74). -/
theorem afterInputs_mapLines (cmd : Byte) (s : State) :
    (afterInputs (mapLines cmd) s).mapPorts = mapGathered cmd ∧
      (afterInputs (mapLines cmd) s).crc = s.crc :=
  ⟨mapOutputs_eq_mapGathered cmd, nextCrc_nop Config.DIN_OMITTED s.crc⟩

/-- Settles O18: CRC leaves the checksum whatever `crc` held, CHECK is CRC of the frame, whose residue
is zero exactly for its own checksum, and MAP is a NOP with a command byte. -/
theorem pseudoInstructionsExpand : Obligations.PseudoInstructionsExpand := by
  refine ⟨fun _ _ => rfl, rfl, fun s bs inp => ?_, fun _ => rfl, fun s f inp => ?_,
    fun s cmd => ⟨rfl, _, runInputs_eq _ s, afterInputs_mapLines cmd s⟩⟩
  · refine ⟨_, _, runInputs_eq _ s, step_present_singleton _ inp, ?_⟩
    rw [step_after_crcLines_crcPorts]
  · refine ⟨_, _, runInputs_eq _ s, step_present_singleton _ inp, ?_⟩
    rw [checkLines, step_after_crcLines_crcPorts, ← f.compute_bytes_eq_zero_iff]
    exact beq_iff_eq

end Sys2Proof.Machine

/-! PROOFS. What the caller answers to a valid frame: nothing for an unknown command, and the reply of
each known one once the bus has answered (30_encoding.md R67, R72). -/

namespace Sys2Proof.Machine

/-! ### The dispatcher, class by class -/

theorem handleFrame_of_valid {f : Frame} (h : validate f = .ok) (order : WriteByteOrder) (bus : Bus)
    (snap : Snapshot) : handleFrame order bus f snap = dispatch order bus f snap := by
  simp [handleFrame, h]

theorem dispatch_of_kind_none {f : Frame} (h : kindOf f.command = .none) (order : WriteByteOrder)
    (bus : Bus) (snap : Snapshot) : dispatch order bus f snap = .answered ⟨[], snap⟩ := by
  simp [dispatch, h]

/-- A write that the bus answers, whatever status it reports, is replied to with that status. -/
theorem handleFrame_of_write {f : Frame} (hvalid : validate f = .ok) {c : Byte}
    (hcmd : f.command = c) (hkind : kindOf c = .write) {order : WriteByteOrder} {bus : Bus}
    {st : WriteStatus} (hwrite : bus.write Config.DEV_ADDR (registerAddress c)
      (writeData order f.param1 f.param2) = some st) (snap : Snapshot) :
    handleFrame order bus f snap = .answered ⟨writeReply c st, snap⟩ := by
  have hbus : busAccess (mapOutputs c).regAddr (bus.write (mapOutputs c).devAddr
      (mapOutputs c).regAddr (writeData order f.param1 f.param2)) = .answered st := by
    rw [← busAccess_some st (named_of_kindOf_eq_write hkind), ← hwrite]; rfl
  rw [handleFrame_of_valid hvalid]
  simp [dispatch, hcmd, hkind, hbus]

/-- The two bytes written to a slot are the slot (20_memory.md R46). -/
theorem Snapshot.slot_writeSlot (snap : Snapshot) {off : BitVec 3}
    (h : off.toNat + 1 < SNAPSHOT_BYTES) (bytes : Byte × Byte) :
    (snap.writeSlot off bytes).slot off = [bytes.1, bytes.2] := by
  have hlength : off.toNat + 1 < snap.toList.length := snap.length_toList.symm ▸ h
  rw [Snapshot.slot, Snapshot.toList_writeSlot,
    List.drop_eq_getElem_cons (by simp only [List.length_set]; omega),
    List.drop_eq_getElem_cons (by simpa only [List.length_set] using hlength)]
  simp [REGISTER_BYTES]

/-- The slot of a single read lies in the snapshot. -/
theorem snapshotOffset_lt {c : Byte} (h : c ∈ subReads) :
    (snapshotOffset c).toNat + 1 < SNAPSHOT_BYTES := by
  rcases (mem_subReads_iff c).mp h with rfl | rfl | rfl | rfl <;> decide

/-- A single read that the bus answers is replied to with its two bytes. -/
theorem dispatch_of_mem_subReads {f : Frame} (h : f.command ∈ subReads) {bus : Bus}
    {bytes : Byte × Byte}
    (hread : bus.read Config.DEV_ADDR (registerAddress f.command) = some bytes)
    (order : WriteByteOrder) (snap : Snapshot) : dispatch order bus f snap =
      .answered ⟨replyHeader f.command ++ [bytes.1, bytes.2],
        snap.writeSlot (snapshotOffset f.command) bytes⟩ := by
  have hslot := snap.slot_writeSlot (snapshotOffset_lt h) bytes
  have hoff : (mapOutputs f.command).snapOff = snapshotOffset f.command := rfl
  simp only [dispatch, (kindOf_eq_read1_iff _).mpr h, readRegister_of_read h hread, hoff, hslot]

/-- Against a bus that answers every read, ReadAll leaves the four registers in order. -/
theorem readAll_of_read {bus : Bus} {v : Byte → Byte × Byte}
    (hread : ∀ r, bus.read Config.DEV_ADDR r = some (v r)) (snap : Snapshot) :
    ∃ snap', readAll bus snap = .answered snap' ∧ snap'.toList =
      [(v 1).1, (v 1).2, (v 2).1, (v 2).2, (v 3).1, (v 3).2, (v 4).1, (v 4).2] := by
  have hsub (c : Byte) (hc : c ∈ subReads) (s : Snapshot) :
      readRegister bus c s = .answered (s.writeSlot (snapshotOffset c) (v (registerAddress c))) :=
    readRegister_of_read hc (hread _) s
  exact ⟨_, readAll_of_answered (hsub Config.CMD_READ_SHUNT_VOLTAGE (by decide) snap)
    (hsub Config.CMD_READ_BUS_VOLTAGE (by decide) _) (hsub Config.CMD_READ_POWER (by decide) _)
    (hsub Config.CMD_READ_CURRENT (by decide) _), Snapshot.toList_writeSlot_all snap _ _ _ _⟩

/-- ReadAll, once answered, is replied to with the whole snapshot. -/
theorem dispatch_of_kind_readall {f : Frame} (h : kindOf f.command = .readall) {bus : Bus}
    {snap snap' : Snapshot} (hall : readAll bus snap = .answered snap') (order : WriteByteOrder) :
    dispatch order bus f snap =
      .answered ⟨replyHeader f.command ++ snap'.toList, snap'⟩ := by
  simp [dispatch, h, hall]

/-! ### The statements -/

/-- Settles O54: a byte that is no code has the class NONE, for which nothing is replied. -/
theorem unknownCommandIsSilentlyIgnored : Obligations.UnknownCommandIsSilentlyIgnored := by
  intro order bus f snap hvalid hunknown
  rw [handleFrame_of_valid hvalid, dispatch_of_kind_none (kindOf_of_not_mem hunknown)]

/-- Settles O58: the dispatcher's answer for each class, at the commands of that class. -/
theorem replyShapes : Obligations.ReplyShapes := by
  refine ⟨rfl, rfl,
    fun _ _ _ snap _ hvalid hcmd hwrite => handleFrame_of_write hvalid hcmd (by decide) hwrite snap,
    fun _ _ _ snap _ hvalid hcmd hwrite => handleFrame_of_write hvalid hcmd (by decide) hwrite snap,
    ?singleRead, ?readAll⟩
  case singleRead =>
    intro order bus f snap hi lo hvalid hcmd hread
    rw [handleFrame_of_valid hvalid, dispatch_of_mem_subReads hcmd hread]
    exact ⟨_, rfl⟩
  case readAll =>
    intro order bus f snap v hvalid hcmd hread
    have hkind : kindOf f.command = .readall := by rw [hcmd]; decide
    obtain ⟨snap', hall, hbytes⟩ := readAll_of_read hread snap
    refine ⟨snap', ?_⟩
    rw [handleFrame_of_valid hvalid, dispatch_of_kind_readall hkind hall, hbytes, hcmd]; rfl

end Sys2Proof.Machine

/-! PROOFS. The functions of the CRC unit: `T` is linear and loses nothing, and so does the running value
along a sequence; the printed values (40_crc.md R80, R82, R89, R95). -/

namespace Sys2Proof.Machine

/-! ### The byte map and the byte update -/

/-- `T` is linear over GF(2) (R89). -/
theorem T_xor (x y : Byte) : T (x ^^^ y) = T x ^^^ T y := bitLoop_xor Config.W x y

theorem T_eq_zero_iff (x : Byte) : T x = 0x00 ↔ x = 0x00 := bitLoop_eq_zero_iff Config.W x

@[simp] theorem T_zero : T 0x00 = 0x00 := (T_eq_zero_iff 0x00).mpr rfl

/-- Two bytes with one image differ by a byte that `T` takes to zero. -/
theorem T_injective : Function.Injective T := by
  intro x y h
  have hupd : upd x y = 0 := by
    rw [upd, T_xor, h]
    exact BitVec.xor_self
  exact (upd_eq_zero_iff x y).mp hupd

/-- The update of the initial value is `T` of the byte alone (R87). -/
theorem upd_init (b : Byte) : upd Config.CRC_INIT b = T b := congrArg T BitVec.zero_xor

/-- A zero byte is passed over by the XOR. -/
theorem upd_zero_right (c : Byte) : upd c 0x00 = T c := congrArg T BitVec.xor_zero

theorem upd_xor (c d a b : Byte) : upd (c ^^^ d) (a ^^^ b) = upd c a ^^^ upd d b := by
  rw [upd, upd, upd, ← T_xor]; ac_rfl

/-- Different running values stay different under the same byte. -/
theorem upd_left_injective (b : Byte) : Function.Injective (upd · b) :=
  T_injective.comp fun _ _ h => (BitVec.xor_left_inj b).mp h

/-! ### The running value along a sequence -/

theorem fold_left_injective (bs : List Byte) : Function.Injective (fold · bs) := by
  induction bs with
  | nil => exact Function.injective_id
  | cons b bs ih => exact ih.comp (upd_left_injective b)

/-- A sequence fed from `c` gives its own checksum exactly if `c` was zero. -/
theorem fold_eq_compute_iff (c : Byte) (bs : List Byte) : fold c bs = compute bs ↔ c = 0x00 :=
  (fold_left_injective bs).eq_iff

/-- The running value is linear in its start and in its bytes together. -/
theorem fold_zipWith_xor (c d : Byte) {a b : List Byte} (h : a.length = b.length) :
    fold (c ^^^ d) (List.zipWith (· ^^^ ·) a b) = fold c a ^^^ fold d b := by
  induction a generalizing b c d with
  | nil => rw [List.length_eq_zero_iff.mp h.symm]; rfl
  | cons x a ih =>
    cases b with
    | nil => cases h
    | cons y b =>
      rw [List.zipWith_cons_cons, fold_cons, fold_cons, fold_cons, upd_xor]
      exact ih _ _ (Nat.succ.inj h)

/-- Zero bytes keep a running value of zero (R93). -/
theorem fold_zero_replicate_zero (k : Nat) : fold 0x00 (List.replicate k 0x00) = 0x00 := by
  induction k with
  | zero => rfl
  | succ k ih => rw [List.replicate_succ, fold_cons, upd_zero_right, T_zero, ih]

/-! ### The statements -/

/-- Settles O37: the last byte is one more update of the running value. -/
theorem computeByteByByte : Obligations.ComputeByteByByte :=
  ⟨compute_nil, fun bs b => compute_append bs [b], by decide +kernel⟩

/-- Settles O39: the bit loop is linear and takes only zero to zero, so it is injective, and bytes are
finitely many. -/
theorem byteMapIsLinearAndBijective : Obligations.ByteMapIsLinearAndBijective :=
  ⟨T_xor, T_zero, fun x => (T_eq_zero_iff x).mp, Finite.injective_iff_bijective.mp T_injective,
    upd_eq_zero_iff⟩

/-- Settles O49: the running value is linear, from `0x00 ^ 0x00`. -/
theorem checksumIsLinear : Obligations.ChecksumIsLinear := fun _ _ h => fold_zipWith_xor 0x00 0x00 h

/-- Settles O36: the loop and its eight iterations by definition, the trace of `0x23` evaluated. -/
theorem bitLoopAsPrinted : Obligations.BitLoopAsPrinted :=
  ⟨fun _ => rfl, fun _ => rfl, by decide, by decide⟩

/-- Settles O38: the printed table, entry by entry. -/
theorem tableFormIsTheBitLoop : Obligations.TableFormIsTheBitLoop := by
  unfold Obligations.TableFormIsTheBitLoop; decide

end Sys2Proof.Machine

/-! PROOFS. The four operations of the CRC unit: the value each commits, and its encoding
(40_crc.md R84 to R88). -/

namespace Sys2Proof.Machine

/-! ### The meaning of each operation -/

theorem exec_nop (din : Byte) (s : State) : exec (.nop din) s = .next (s.commit s.crc) := rfl
theorem exec_init (din : Byte) (s : State) :
    exec (.init din) s = .next (s.commit Config.CRC_INIT) := rfl
theorem exec_upd (din : Byte) (s : State) :
    exec (.upd din) s = .next (s.commit (upd s.crc din)) := rfl
theorem exec_initupd (din : Byte) (s : State) :
    exec (.initupd din) s = .next (s.commit (upd Config.CRC_INIT din)) := rfl

/-- After a commit the flag tells whether the committed value is zero. -/
theorem State.commit_crcZero_iff (s : State) (v : Byte) :
    (s.commit v).crcZero = true ↔ v = 0x00 := (s.commit v).crcZero_iff

/-- The running value after a list of inputs depends on the state's `crc` alone. -/
theorem afterInputs_crc_congr (ins : List Inputs) {s t : State} (h : s.crc = t.crc) :
    (afterInputs ins s).crc = (afterInputs ins t).crc := by
  rw [afterInputs_crc, afterInputs_crc, h]

/-- A NOP step may be left out of a run (R84). -/
theorem afterInputs_insert_nop_crc (pre post : List Inputs) (din cmd : Byte) (s : State) :
    (afterInputs (pre ++ [⟨false, Config.OP_NOP, din, cmd⟩] ++ post) s).crc =
      (afterInputs (pre ++ post) s).crc := by
  rw [afterInputs_append, afterInputs_append, afterInputs_append]
  exact afterInputs_crc_congr post (nextCrc_nop din _)

/-! ### The statements -/

/-- Settles O3: the step commits the next-state function, whose cases are the four codes. -/
theorem stepCommitsNextCrc : Obligations.StepCommitsNextCrc := by
  intro s rst op din cmd
  refine ⟨_, step_present_singleton s _, ?_, ?_, ?_, ?_, ?_⟩
  · rintro rfl; rfl
  · rintro ⟨rfl, rfl⟩; exact nextCrc_nop din s.crc
  · rintro ⟨rfl, rfl⟩; rfl
  · rintro ⟨rfl, rfl⟩; exact nextCrc_upd din s.crc
  · rintro ⟨rfl, rfl⟩; exact nextCrc_initupd din s.crc

/-- Settles O19: NOP commits the value it finds, so later steps start from the same `crc`. -/
theorem nopLeavesCrc : Obligations.NopLeavesCrc := by
  refine ⟨decodeCtl_nop, fun s din => exec_nop din s, fun s pre post din cmd => ?_,
    fun s din hcrc => ⟨_, exec_nop din s, hcrc⟩⟩
  have hcrc := afterInputs_insert_nop_crc pre post din cmd s
  exact ⟨_, _, runInputs_eq _ s, runInputs_eq _ s, hcrc, congrArg zeroFlag hcrc⟩

/-- Settles O20: INIT commits `0x00`, which at `0x00` is the value NOP commits. -/
theorem initLoadsTheInitialValue : Obligations.InitLoadsTheInitialValue := by
  refine ⟨decodeCtl_init, fun s din => exec_init din s, fun s din => ⟨_, exec_init din s, rfl⟩,
    fun s din hcrc => ?_, fun s din _ => ⟨_, exec_init din s, rfl⟩⟩
  rw [exec_init, exec_nop, hcrc]; rfl

/-- Settles O21: UPD commits the byte update, which is zero exactly for equal operands; the corner
cases are the values of `T` at `crc ^ din`. -/
theorem updFoldsOneByte : Obligations.UpdFoldsOneByte := by
  refine ⟨decodeCtl_upd, fun s din => exec_upd din s, fun s din => ⟨_, exec_upd din s, ?flag⟩,
    fun s din => ⟨_, exec_upd din s, ?zeros, ?equal, ?topBit, ?lowBit, ?allOnes, ?commuted⟩,
    by decide, fun s hcrc => ⟨_, exec_upd 0x23 s, ?printed⟩⟩
  all_goals simp only [State.commit_crcZero_iff, State.commit_crc]
  case flag => exact (upd_eq_zero_iff s.crc din).trans eq_comm
  case zeros => rintro ⟨hcrc, rfl⟩; exact (upd_eq_zero_iff _ _).mpr hcrc
  case equal => intro h; exact (upd_eq_zero_iff _ _).mpr h.symm
  case topBit => intro h; rw [upd, h]; decide
  case lowBit => intro h; rw [upd, h]; decide
  case allOnes => intro h; rw [upd, h]; decide
  case commuted => rw [upd, BitVec.xor_comm]
  case printed => rw [hcrc]; decide

/-- Settles O22: INITUPD commits the update of the value that INIT commits, which is `T din`. -/
theorem initupdStartsASequence : Obligations.InitupdStartsASequence := by
  refine ⟨decodeCtl_initupd, fun s din => ?result, fun s din => ⟨_, exec_initupd din s, ?flag⟩,
    fun s d din => ⟨_, _, exec_initupd din s, exec_upd din (s.commit Config.CRC_INIT), rfl⟩,
    fun s => ⟨_, exec_initupd 0x23 s, ?printed⟩⟩
  case result => rw [exec_initupd, upd_init]; rfl
  case flag => rw [State.commit_crcZero_iff, upd_init, T_eq_zero_iff]
  case printed => rw [State.commit_crc]; decide

/-- Settles O23: each of the four is one commit. -/
theorem crcOperationsFrame : Obligations.CrcOperationsFrame := by
  intro s din i hi
  simp only [List.mem_cons, List.not_mem_nil, or_false] at hi
  rcases hi with rfl | rfl | rfl | rfl
  · exact ⟨_, exec_nop din s, rfl, rfl, rfl, rfl, fun _ => rfl⟩
  · exact ⟨_, exec_init din s, rfl, rfl, rfl, rfl, nofun⟩
  · exact ⟨_, exec_upd din s, rfl, rfl, rfl, rfl, nofun⟩
  · exact ⟨_, exec_initupd din s, rfl, rfl, rfl, rfl, nofun⟩

end Sys2Proof.Machine

/-! PROOFS. The CRC unit computes the checksum: runs read as the operations they present, NOPs left
out, and runs of assembler lines (40_crc.md R83, R90 to R94). -/

namespace Sys2Proof.Machine

/-! ### A run as the operations it presents -/

theorem Inputs.isNop_iff (inp : Inputs) :
    inp.isNop = true ↔ inp.rst = false ∧ inp.op = Config.OP_NOP := by
  simp [Inputs.isNop]

/-- NOP steps, with any `din` and `cmd`, hold `crc` (R84). -/
theorem afterInputs_idle_crc {ins : List Inputs} (h : ∀ inp ∈ ins, inp.isNop = true) (s : State) :
    (afterInputs ins s).crc = s.crc := by
  induction ins generalizing s with
  | nil => rfl
  | cons inp ins ih =>
    obtain ⟨hinp, hins⟩ := List.forall_mem_cons.mp h
    obtain ⟨hrst, hop⟩ := inp.isNop_iff.mp hinp
    rw [afterInputs, ih hins, afterUnits_crc, hrst, hop, nextCrc_nop]

/-- The operation an input sample presents commits the next-state function of the sample. -/
theorem exec_of_operation {inp : Inputs} {i : Instr} (h : inp.operation = some i) (s : State) :
    exec i s = .next (s.commit (nextCrc inp.rst inp.op inp.din s.crc)) := by
  rw [← crcUnit_eq, crcUnit]
  unfold Inputs.operation at h
  split at h
  case isTrue => cases h
  case isFalse hrst => cases h; rw [if_neg hrst]

/-- Inputs that present no operation are NOP steps. -/
theorem isNop_of_presentsOperations_nil {ins : List Inputs} (h : PresentsOperations ins []) :
    ∀ inp ∈ ins, inp.isNop = true := by
  simpa [PresentsOperations, List.filter_eq_nil_iff] using h

/-- The first operation presented stands behind NOP steps alone. -/
theorem exists_of_presentsOperations_cons {ins : List Inputs} {i : Instr} {ops : List Instr}
    (h : PresentsOperations ins (i :: ops)) : ∃ idle inp rest, ins = idle ++ inp :: rest ∧
      (∀ x ∈ idle, x.isNop = true) ∧ inp.operation = some i ∧ PresentsOperations rest ops := by
  obtain ⟨inp, later, hfilter, hinp, hlater⟩ := List.map_eq_cons_iff.mp h
  obtain ⟨idle, rest, hins, hidle, -, rfl⟩ := List.filter_eq_cons_iff.mp hfilter
  exact ⟨idle, inp, rest, hins, fun x hx => by simpa using hidle x hx, hinp, hlater⟩

/-- A run executes the first operation it presents and then a run that presents the others. -/
theorem afterInputs_crc_of_presents_cons {ins : List Inputs} {i : Instr} {ops : List Instr}
    (h : PresentsOperations ins (i :: ops)) {s t : State} (hexec : exec i s = .next t) :
    ∃ rest, PresentsOperations rest ops ∧ (afterInputs ins s).crc = (afterInputs rest t).crc := by
  obtain ⟨idle, inp, rest, rfl, hidle, hinp, hrest⟩ := exists_of_presentsOperations_cons h
  refine ⟨rest, hrest, ?_⟩
  have ht := Host.Outcome.next.inj ((exec_of_operation hinp s).symm.trans hexec)
  rw [afterInputs_append, ← ht]
  refine afterInputs_crc_congr rest ?_
  rw [afterUnits_crc, State.commit_crc, afterInputs_idle_crc hidle]

/-- UPDs among NOPs fold their bytes into the running value. -/
theorem afterInputs_crc_of_presents_upds {ins : List Inputs} {bs : List Byte}
    (h : PresentsOperations ins (bs.map .upd)) (s : State) :
    (afterInputs ins s).crc = fold s.crc bs := by
  induction bs generalizing ins s with
  | nil => exact afterInputs_idle_crc (isNop_of_presentsOperations_nil h) s
  | cons b bs ih =>
    obtain ⟨rest, hrest, hcrc⟩ := afterInputs_crc_of_presents_cons h (exec_upd b s)
    rw [hcrc, ih hrest, State.commit_crc, fold_cons]

/-- A run that begins with an operation and goes on with UPDs folds the bytes into the value which that
operation commits. -/
theorem afterInputs_crc_of_presents_start {ins : List Inputs} {i : Instr} {bs : List Byte}
    (h : PresentsOperations ins (i :: bs.map .upd)) {s : State} {v : Byte}
    (hexec : exec i s = .next (s.commit v)) : (afterInputs ins s).crc = fold v bs := by
  obtain ⟨rest, hrest, hcrc⟩ := afterInputs_crc_of_presents_cons h hexec
  rw [hcrc, afterInputs_crc_of_presents_upds hrest, State.commit_crc]

/-- What a run leaves in `crc` is on `crc_out` in the next step. -/
theorem run_then_step_shows {ins : List Inputs} {s : State} {v : Byte}
    (h : (afterInputs ins s).crc = v) (inp : Inputs) : ∃ t u, runInputs ins s = .next t ∧
      t.crc = v ∧ step (t.present [inp]) = .next u ∧ u.crcPorts.crcOut = v :=
  ⟨_, _, runInputs_eq ins s, h, step_present_singleton _ inp, h⟩

/-- Settles O40: INITUPD commits the running value after one byte, INIT and a reset the initial one;
the UPDs fold in the rest. -/
theorem unitComputesTheChecksum : Obligations.UnitComputesTheChecksum := by
  refine ⟨fun s ins b bs inp h => run_then_step_shows ?_ inp,
    fun s ins d bs inp h => run_then_step_shows ?_ inp,
    fun s op din cmd ins bs inp h => run_then_step_shows ?_ inp, compute_nil⟩
  · exact afterInputs_crc_of_presents_start h (exec_initupd b s)
  · exact afterInputs_crc_of_presents_start h (exec_init d s)
  · exact afterInputs_crc_of_presents_upds h (afterUnits ⟨true, op, din, cmd⟩ s)

/-! ### Runs of assembler lines -/

theorem afterInputs_assemble_append (a b : List Line) (s : State) :
    afterInputs (assemble (a ++ b)) s = afterInputs (assemble b) (afterInputs (assemble a) s) := by
  rw [assemble, List.map_append, afterInputs_append]; rfl

/-- Bytes fed after other lines are folded into the running value those leave. -/
theorem afterInputs_append_feed_crc (ls : List Line) (bs : List Byte) (s : State) :
    (afterInputs (assemble (ls ++ feedLines bs)) s).crc =
      fold (afterInputs (assemble ls) s).crc bs := by
  rw [afterInputs_assemble_append, afterInputs_feed_crc]

/-- CHECK leaves the residue of the frame (30_encoding.md R74). -/
theorem afterInputs_checkLines_crc (f : Frame) (s : State) :
    (afterInputs (assemble (checkLines f)) s).crc = compute f.bytes := afterInputs_crcLines_crc _ s

/-- A frame's residue is zero exactly if its checksum is correct (R90). -/
theorem Frame.checksumCorrect_iff (f : Frame) : f.checksumCorrect ↔ compute f.bytes = 0x00 :=
  eq_comm.trans f.compute_bytes_eq_zero_iff.symm

/-- Settles O41: the last byte is updated into the checksum of the others. -/
theorem residueLaw : Obligations.ResidueLaw := by
  intro s m b
  have hcrc : (afterInputs (assemble (crcLines m ++ [.upd b])) s).crc = upd (compute m) b := by
    rw [← afterInputs_crcLines_crc m s]
    exact afterInputs_append_feed_crc (crcLines m) [b] s
  refine ⟨_, runInputs_eq _ s, ?_⟩
  rw [hcrc, Ne, Ne, upd_eq_zero_iff, eq_comm]
  exact ⟨id, id⟩

/-- Settles O42: one feed ends with the checksum of the covered bytes on `crc_out`, the other with the
frame's residue, which is zero exactly if that checksum is the frame's. -/
theorem frameCheckMethodsAgree : Obligations.FrameCheckMethodsAgree := by
  intro s f inp
  refine ⟨?_, _, _, _, _, runInputs_eq _ s, step_present_singleton _ inp, runInputs_eq _ s,
    step_present_singleton _ inp, ?_⟩
  · obtain ⟨h1, h2, c, p1, p2, k, rfl⟩ := f.exists_fields; rfl
  · have hzero : zeroFlag (compute f.bytes) = true ↔ f.checksumCorrect :=
      beq_iff_eq.trans f.checksumCorrect_iff.symm
    rw [checkLines, step_after_crcLines_crcPorts, step_after_crcLines_crcPorts]
    exact ⟨hzero.symm, hzero⟩

/-- Settles O44: a running value of zero is kept by zero bytes, so a message behind them starts as it
does alone; the frames are evaluated. -/
theorem leadingZerosDoNotCount : Obligations.LeadingZerosDoNotCount := by
  refine ⟨fun k m => ?_, fun s k hcrc => ⟨_, runInputs_eq _ s, ?_⟩, by decide +kernel,
    by decide +kernel, by decide +kernel, by decide⟩
  · rw [compute_append, compute_eq_fold, fold_zero_replicate_zero, compute_eq_fold]
  · rw [afterInputs_feed_crc, hcrc, fold_zero_replicate_zero]

/-- Settles O45: without a start the message is fed from the frame's residue; INIT and the expansion of
CRC forget it. -/
theorem chainingAfterAFrameCheck : Obligations.ChainingAfterAFrameCheck := by
  intro s f m
  refine ⟨_, _, _, _, runInputs_eq _ s, runInputs_eq _ s, runInputs_eq _ s, runInputs_eq _ s,
    ?residue, ?unstarted, ?init, ?crc⟩
  case residue => rw [afterInputs_checkLines_crc, f.checksumCorrect_iff]
  case unstarted =>
    rw [afterInputs_append_feed_crc, afterInputs_checkLines_crc, fold_eq_compute_iff,
      f.checksumCorrect_iff]
  case init =>
    rw [afterInputs_assemble_append]
    exact afterInputs_feed_crc m _
  case crc =>
    rw [afterInputs_assemble_append, afterInputs_crcLines_crc]

end Sys2Proof.Machine

/-! PROOFS. The errors a frame check detects: odd weights by parity, since `POLY` with its top term has
an even number of terms; two bits by the images of a single bit (40_crc.md R92). -/

namespace Sys2Proof.Machine

/-! ### The weight of a byte -/

theorem popCount_eq_zero_iff (b : Byte) : popCount b = 0 ↔ b = 0x00 := by
  revert b; decide

@[simp] theorem weight_cons (b : Byte) (bs : List Byte) :
    weight (b :: bs) = popCount b + weight bs := by simp [weight]

/-- The elements that exactly one of two tests passes are as many as both pass together, up to parity. -/
theorem length_filter_xor_mod_two {α : Type} (p q : α → Bool) (l : List α) :
    (l.filter fun a => p a ^^ q a).length % 2 =
      ((l.filter p).length + (l.filter q).length) % 2 := by
  induction l with
  | nil => rfl
  | cons a l ih => cases hp : p a <;> cases hq : q a <;> simp [hp, hq] <;> omega

theorem popCount_xor_mod_two (x y : Byte) :
    popCount (x ^^^ y) % 2 = (popCount x + popCount y) % 2 := by
  have hbits : (x ^^^ y).getLsbD = fun i => x.getLsbD i ^^ y.getLsbD i :=
    funext fun _ => BitVec.getLsbD_xor
  rw [popCount, hbits, length_filter_xor_mod_two]; rfl

/-! ### Odd weights -/

/-- One iteration keeps the parity: the bit shifted out and the three of `POLY` are four. -/
theorem popCount_bitStep_mod_two (v : Byte) : popCount (bitStep v) % 2 = popCount v % 2 := by
  revert v; decide

theorem popCount_bitLoop_mod_two (n : Nat) (v : Byte) :
    popCount (bitLoop n v) % 2 = popCount v % 2 := by
  induction n generalizing v with
  | zero => rfl
  | succ n ih => rw [bitLoop, ih, popCount_bitStep_mod_two]

theorem popCount_upd_mod_two (c b : Byte) :
    popCount (upd c b) % 2 = (popCount c + popCount b) % 2 :=
  (popCount_bitLoop_mod_two Config.W (c ^^^ b)).trans (popCount_xor_mod_two c b)

/-- The running value has the parity of all bits fed into it. -/
theorem popCount_fold_mod_two (c : Byte) (bs : List Byte) :
    popCount (fold c bs) % 2 = (popCount c + weight bs) % 2 := by
  induction bs generalizing c with
  | nil => rfl
  | cons b bs ih =>
    have hupd := popCount_upd_mod_two c b
    rw [fold_cons, ih, weight_cons]; omega

/-- Any odd number of flipped bits, in a sequence of any length, leaves a residue. -/
theorem compute_ne_zero_of_odd_weight {bs : List Byte} (h : weight bs % 2 = 1) :
    compute bs ≠ 0x00 := by
  intro hzero
  have hparity : popCount (compute bs) % 2 = (popCount 0x00 + weight bs) % 2 :=
    popCount_fold_mod_two 0x00 bs
  have hnone : popCount 0x00 = 0 := rfl
  rw [hzero, hnone] at hparity
  omega

/-! ### Two bits -/

/-- Behind the last set bit only a running value of zero ends as zero. -/
theorem eq_zero_of_fold_weight_zero {c : Byte} {bs : List Byte} (hw : weight bs = 0)
    (h : fold c bs = 0x00) : c = 0x00 := by
  induction bs generalizing c with
  | nil => exact h
  | cons b bs ih =>
    rw [weight_cons, Nat.add_eq_zero_iff, popCount_eq_zero_iff] at hw
    obtain ⟨rfl, hbs⟩ := hw
    have hT : T c = 0x00 := upd_zero_right c ▸ ih hbs h
    exact (T_eq_zero_iff c).mp hT

/-- A last single bit cancels the running value only if that has become this bit before it. -/
theorem exists_iterate_of_fold_weight_one {c : Byte} {bs : List Byte} (hw : weight bs = 1)
    (h : fold c bs = 0x00) : ∃ j < bs.length, popCount (T^[j] c) = 1 := by
  induction bs generalizing c with
  | nil => cases hw
  | cons b bs ih =>
    rw [weight_cons] at hw
    rw [fold_cons] at h
    obtain ⟨hb, hbs⟩ | ⟨hb, hbs⟩ := Nat.add_eq_one_iff.mp hw
    · rw [(popCount_eq_zero_iff b).mp hb, upd_zero_right] at h
      obtain ⟨j, hj, hbit⟩ := ih hbs h
      exact ⟨j + 1, Nat.succ_lt_succ hj, hbit⟩
    · have hc := (upd_eq_zero_iff c b).mp (eq_zero_of_fold_weight_zero hbs h)
      exact ⟨0, Nat.succ_pos _, hc ▸ hb⟩

/-- Over the bytes of a frame, `T` takes no single bit to a single bit. -/
theorem popCount_iterate_T_ne_one : ∀ j < Config.FRAME_LEN - 1, ∀ b : Byte, popCount b = 1 →
    popCount (T^[j + 1] b) ≠ 1 := by decide

/-- Two flipped bits within the length of a frame leave a residue. -/
theorem compute_ne_zero_of_weight_two {bs : List Byte} (hlen : bs.length ≤ Config.FRAME_LEN)
    (hw : weight bs = 2) : compute bs ≠ 0x00 := by
  intro h
  induction bs with
  | nil => cases hw
  | cons b bs ih =>
    rw [List.length_cons] at hlen
    rw [weight_cons] at hw
    have hfold : fold (T b) bs = 0x00 := upd_init b ▸ h
    obtain ⟨hb, hbs⟩ | ⟨hb, hbs⟩ | ⟨hb, hbs⟩ := Nat.add_eq_two_iff.mp hw
    · rw [(popCount_eq_zero_iff b).mp hb, T_zero] at hfold
      exact ih (Nat.le_of_succ_le hlen) hbs hfold
    · obtain ⟨j, hj, hbit⟩ := exists_iterate_of_fold_weight_one hbs hfold
      exact popCount_iterate_T_ne_one j (hj.trans_le (Nat.le_sub_of_add_le hlen)) b hb hbit
    · have hzero := (T_eq_zero_iff b).mp (eq_zero_of_fold_weight_zero hbs hfold)
      rw [hzero] at hb
      cases hb

/-! ### Frames -/

theorem Frame.length_bytes (f : Frame) : f.bytes.length = Config.FRAME_LEN := f.cells.length_toList

theorem Frame.bytes_flip (f e : Frame) :
    (f.flip e).bytes = List.zipWith (· ^^^ ·) f.bytes e.bytes := Vector.toList_zipWith

/-- The residue of a corrupted correct frame is that of the error pattern. -/
theorem Frame.compute_bytes_flip {f : Frame} (hf : f.checksumCorrect) (e : Frame) :
    compute (f.flip e).bytes = compute e.bytes := by
  have hlength : f.bytes.length = e.bytes.length := f.length_bytes.trans e.length_bytes.symm
  have hzero := f.checksumCorrect_iff.mp hf
  rw [Frame.bytes_flip, checksumIsLinear _ _ hlength, hzero]
  exact BitVec.zero_xor

/-- Up to three flipped bits of a frame leave a residue. -/
theorem Frame.compute_bytes_ne_zero {e : Frame} (hone : 1 ≤ weight e.bytes)
    (hthree : weight e.bytes ≤ 3) : compute e.bytes ≠ 0x00 := by
  by_cases htwo : weight e.bytes = 2
  · exact compute_ne_zero_of_weight_two e.length_bytes.le htwo
  · exact compute_ne_zero_of_odd_weight (by omega)

/-- Settles O43: the check leaves the residue of the error pattern, which weights 1 and 3 give by
parity and weight 2 by the images of a single bit. -/
theorem upToThreeBitErrorsAreDetected : Obligations.UpToThreeBitErrorsAreDetected := by
  refine ⟨fun f e hf => Frame.compute_bytes_flip hf e, fun s f e hf hone hthree => ?_,
    by decide, by decide +kernel⟩
  refine ⟨_, runInputs_eq _ s, ?_⟩
  rw [afterInputs_checkLines_crc, Frame.compute_bytes_flip hf]
  exact Frame.compute_bytes_ne_zero hone hthree

end Sys2Proof.Machine

/-! PROOFS. The eight look-ups of the mapper: each drives the outputs of the byte that encodes it, and
nothing else (41_mapper.md R100 to R113). -/

namespace Sys2Proof.Machine

/-! ### A look-up and its command byte -/

/-- An instruction with a command byte is a look-up: it drives that byte's outputs. -/
theorem exec_of_encode_cmd {i : Instr} {code : Byte} (h : encode i = .cmd code) (s : State) :
    exec i s = .next (s.driveMapper (mapOutputs code)) := by
  cases i with
  | nop | init | upd | initupd => cases h
  | _ => cases h; rfl

/-- The look-up with command byte `code`, its outputs `p` written out. -/
theorem exec_of_mapOutputs_eq {i : Instr} {code : Byte} {p : MapPorts} (h : encode i = .cmd code)
    (hp : mapOutputs code = p) (s : State) : exec i s = .next { s with mapPorts := p } := by
  rw [exec_of_encode_cmd h, hp]; rfl

theorem exec_decodeCmd (c : Byte) (s : State) :
    exec (decodeCmd c) s = .next (s.driveMapper (mapOutputs c)) :=
  exec_of_encode_cmd (encode_decodeCmd c) s

/-- The byte that encodes an instruction of the hardware is the only one that decodes to it. -/
theorem decodeCmd_eq_iff_of_encode {i : Instr} {code : Byte} (hwf : i.WellFormed)
    (h : encode i = .cmd code) (c : Byte) : decodeCmd c = i ↔ c = code := by
  constructor
  · rintro rfl
    exact PortWord.cmd.inj ((encode_decodeCmd c).symm.trans h)
  · rintro rfl
    calc decodeCmd c = decodeWord (encode i) := by rw [h, decodeWord]
      _ = i := decodeWord_encode hwf

/-! ### The class on the port `kind` -/

theorem kindCode_inj (k k' : Kind) : kindCode k = kindCode k' ↔ k = k' := by
  cases k <;> cases k' <;> decide

theorem mapOutputs_kind_iff (c : Byte) (k : Kind) :
    (mapOutputs c).kind = kindCode k ↔ kindOf c = k := kindCode_inj (kindOf c) k

theorem kindOf_eq_readall_iff (c : Byte) : kindOf c = .readall ↔ c = Config.CMD_READ_ALL := by
  revert c; decide

/-- Exactly the seven codes have a class. -/
theorem kindOf_eq_none_iff (c : Byte) : kindOf c = .none ↔ c ∉ Config.commandCodes := by
  refine ⟨fun h hmem => ?_, kindOf_of_not_mem⟩
  rcases (mem_commandCodes_iff c).mp hmem with rfl | rfl | rfl | rfl | rfl | rfl | rfl <;> cases h

theorem knownFlag_iff_range (c : Byte) :
    knownFlag c = true ↔ 0x50 ≤ c.toNat ∧ c.toNat ≤ 0x56 := by
  rw [knownFlag, Bool.and_eq_true, decide_eq_true_iff, decide_eq_true_iff]; rfl

/-! ### The statements -/

/-- Settles O29: the outputs one by one; `snap_off` is the slot of a legal combination. -/
theorem mapperOutputsForEveryCommand : Obligations.MapperOutputsForEveryCommand := by
  intro s c
  refine ⟨_, exec_decodeCmd c s, ⟨registerAddress_eq_setWidth_rsel c, rfl⟩, rfl,
    knownFlag_iff_range c, ?write, ?read1, ?readall, ?none, fun hread => ?slot,
    (mapOutputs_legal c).no_slot⟩
  case write => exact (mapOutputs_kind_iff c .write).trans (kindOf_eq_write_iff c)
  case read1 => exact (mapOutputs_kind_eq_two_iff c).trans (mem_subReads_iff c)
  case readall => exact (mapOutputs_kind_iff c .readall).trans (kindOf_eq_readall_iff c)
  case none => exact (mapOutputs_kind_iff c .none).trans (kindOf_eq_none_iff c)
  case slot =>
    obtain ⟨_, _, hslot⟩ := (mapOutputs_legal c).single_read hread
    exact hslot

/-- Settles O30: a step drives the outputs of its command byte, whose gathered form subtracts only for
the four single reads. -/
theorem stepDrivesTheGatheredMapper : Obligations.StepDrivesTheGatheredMapper := by
  refine ⟨fun s inp => ⟨_, step_present_singleton s inp, mapOutputs_eq_mapGathered inp.cmd⟩, ?_⟩
  rintro c (rfl | rfl | rfl | rfl) <;> decide

/-- Settles O26: the outputs at each of the four codes, and each code's only decoding. -/
theorem singleReadOutputs : Obligations.SingleReadOutputs :=
  ⟨fun s => ⟨exec_of_mapOutputs_eq rfl (by decide) s, exec_of_mapOutputs_eq rfl (by decide) s,
      exec_of_mapOutputs_eq rfl (by decide) s, exec_of_mapOutputs_eq rfl (by decide) s⟩,
    fun c => ⟨decodeCmd_eq_iff_of_encode rfl rfl c, decodeCmd_eq_iff_of_encode rfl rfl c,
      decodeCmd_eq_iff_of_encode rfl rfl c, decodeCmd_eq_iff_of_encode rfl rfl c⟩,
    rfl, rfl, rfl, rfl⟩

/-- Settles O27: ReadAll's own outputs, and those of the look-ups presented in its place. -/
theorem readAllOutputs : Obligations.ReadAllOutputs :=
  ⟨decodeCmd_eq_iff_of_encode rfl rfl, exec_of_mapOutputs_eq rfl (by decide), rfl, by decide,
    by decide⟩

/-- Settles O28: a byte that is no code drives the outputs of the unknown row; the codes are seven of
the 256 bytes, and the corner cases are evaluated. -/
theorem unknownCommandOutputs : Obligations.UnknownCommandOutputs := by
  refine ⟨fun s c hwf => ?_, by decide +kernel, fun p hp s => ?_⟩
  · have hunknown := (Instr.wellFormed_mapUnknown_iff c).mp hwf
    exact ⟨(decodeCmd_eq_mapUnknown_iff c).mpr hunknown,
      exec_of_mapOutputs_eq rfl (mapOutputs_of_not_mem hunknown) s⟩
  · simp only [List.mem_cons, List.not_mem_nil, or_false] at hp
    have hcorner : mapOutputs p.1 = ⟨p.2, 0x80, false, 0, 0⟩ := by
      rcases hp with rfl | rfl | rfl | rfl | rfl | rfl <;> decide
    exact exec_of_mapOutputs_eq (encode_decodeCmd p.1) hcorner s

/-- Settles O25: the outputs at the two codes, each code's only decoding, and three bytes that the mask
takes to register 0 although they are no code. -/
theorem writeCommandOutputs : Obligations.WriteCommandOutputs := by
  have hconfigure := decodeCmd_eq_iff_of_encode (i := .mapConfigure) rfl rfl
  have hcalibrate := decodeCmd_eq_iff_of_encode (i := .mapCalibrate) rfl rfl
  refine ⟨⟨(hconfigure _).mpr rfl, exec_of_mapOutputs_eq rfl (by decide)⟩,
    ⟨(hcalibrate _).mpr rfl, exec_of_mapOutputs_eq rfl (by decide)⟩,
    fun c hc s => ⟨_, exec_decodeCmd c s, ?_⟩, hconfigure, hcalibrate, rfl, rfl⟩
  have hmasked : (mapOutputs c).regAddr = 0x00 ∧ (mapOutputs c).known = false := by
    revert c; decide
  exact hmasked

/-- Settles O31: each of the eight has a command byte, so it drives the mapper's outputs alone. -/
theorem mapperLookupsFrame : Obligations.MapperLookupsFrame := by
  intro s c i hi
  have hcmd : ∃ code, encode i = .cmd code := by
    simp only [List.mem_cons, List.not_mem_nil, or_false] at hi
    rcases hi with rfl | rfl | rfl | rfl | rfl | rfl | rfl | rfl <;> exact ⟨_, rfl⟩
  obtain ⟨code, hcode⟩ := hcmd
  exact ⟨_, exec_of_encode_cmd hcode s, rfl, rfl, rfl, rfl⟩

end Sys2Proof.Machine

/-! PROOFS. Nothing stops the block, its two units share no state, an idle unit holds `crc`, and the
validator with its error replies (60_exceptions.md R120, R124 to R126, R131). -/

namespace Sys2Proof.Machine

/-! ### The two units -/

/-- The operation of a control word is one commit, of the next-state function without reset. -/
theorem exec_decodeCtl (w : ControlWord) (s : State) : exec (decodeCtl w) s =
    .next (s.commit (nextCrc false (opField w) (dinField w) s.crc)) := by
  refine exec_of_operation (inp := ⟨false, opField w, dinField w, Config.CMD_OMITTED⟩) ?_ s
  rw [Inputs.operation, Inputs.ctl, controlWord_fields]; rfl

/-- The CRC unit writes `crc` and its ports, the mapper its own ports. -/
theorem State.driveMapper_commit (s : State) (p : MapPorts) (v : Byte) :
    (s.driveMapper p).commit v = (s.commit v).driveMapper p := rfl

/-- Settles O5: by induction on the number of steps, each of which answers a next state. -/
theorem everyRunCompletes : Obligations.EveryRunCompletes := by
  intro n
  induction n with
  | zero => exact fun s => ⟨s, rfl⟩
  | succ n ih =>
    intro s
    obtain ⟨t, ht⟩ := ih (afterUnits s.sampled s.afterSample)
    refine ⟨t, ?_⟩
    rw [runSteps, step_eq, andThen_next, ht]

/-- Settles O32: `crc` and its ports come from `rst`, `op`, `din` and the old `crc`, the mapper's outputs
from `cmd`; the units' two writes to the state commute. -/
theorem unitsDoNotInteract : Obligations.UnitsDoNotInteract := by
  refine ⟨fun s op din cmd => ⟨_, step_present_singleton s _, ?reset⟩,
    fun s rst op din cmd cmd' =>
      ⟨_, _, step_present_singleton s _, step_present_singleton s _, ?crc, ?crcPorts⟩,
    fun s s' rst rst' op op' din din' cmd =>
      ⟨_, _, step_present_singleton s _, step_present_singleton s' _, ?mapPorts⟩,
    fun s w c => ?commute⟩
  case reset => rw [afterUnits_crc]; rfl
  case crc => rw [afterUnits_crc, afterUnits_crc]
  case crcPorts => rw [afterUnits_crcPorts, afterUnits_crcPorts]
  case mapPorts => rw [afterUnits_mapPorts, afterUnits_mapPorts]
  case commute =>
    rw [exec_decodeCtl, exec_decodeCmd, andThen_next, andThen_next, exec_decodeCmd, exec_decodeCtl,
      State.driveMapper_commit, State.driveMapper_crc]

/-- Settles O48: a run over NOP steps completes and holds `crc`. -/
theorem idleHoldsCrc : Obligations.IdleHoldsCrc :=
  fun s ins hidle => ⟨_, runInputs_eq ins s, afterInputs_idle_crc hidle s⟩

/-! ### The validator -/

/-- The header test comes first (R125). -/
theorem validate_eq_headerMismatch_iff (f : Frame) :
    validate f = .headerMismatch ↔ f.header1 ≠ 0x23 ∨ f.header2 ≠ 0x23 := by
  unfold validate
  split
  case isTrue hheader => exact iff_of_true rfl hheader
  case isFalse hheader => exact iff_of_false (by split <;> nofun) hheader

/-- Behind the right header bytes the checksum alone decides (R125). -/
theorem validate_of_headers {f : Frame} (h1 : f.header1 = 0x23) (h2 : f.header2 = 0x23) :
    validate f = if f.checksumCorrect then .ok else .checksumMismatch := by
  have hheader : ¬(f.header1 ≠ Config.SENTINEL ∨ f.header2 ≠ Config.SENTINEL) :=
    not_or.mpr ⟨not_not.mpr h1, not_not.mpr h2⟩
  rw [validate, if_neg hheader, ite_not]

theorem validate_eq_ok_iff_of_headers {f : Frame} (h1 : f.header1 = 0x23) (h2 : f.header2 = 0x23) :
    validate f = .ok ↔ f.checksumCorrect := by
  simp [validate_of_headers h1 h2]

theorem validate_eq_checksumMismatch_iff_of_headers {f : Frame} (h1 : f.header1 = 0x23)
    (h2 : f.header2 = 0x23) : validate f = .checksumMismatch ↔ ¬ f.checksumCorrect := by
  simp [validate_of_headers h1 h2]

/-- An answer other than a header mismatch is given to frames with the right header bytes only, so what
it means for those is what it means for any frame. -/
theorem validate_eq_iff_headers_and {f : Frame} {v : Verdict} {P : Prop} (hv : v ≠ .headerMismatch)
    (hP : f.header1 = 0x23 → f.header2 = 0x23 → (validate f = v ↔ P)) :
    validate f = v ↔ f.header1 = 0x23 ∧ f.header2 = 0x23 ∧ P := by
  constructor
  · intro h
    have hheaders : f.header1 = 0x23 ∧ f.header2 = 0x23 := by
      rwa [← h, Ne, validate_eq_headerMismatch_iff, not_or, not_not, not_not] at hv
    obtain ⟨h1, h2⟩ := hheaders
    exact ⟨h1, h2, (hP h1 h2).mp h⟩
  · rintro ⟨h1, h2, h⟩
    exact (hP h1 h2).mpr h

/-- The flag after CHECK is set exactly if the frame's checksum is correct (40_crc.md R91). -/
theorem afterInputs_checkLines_crcZero_iff (f : Frame) (s : State) :
    (afterInputs (assemble (checkLines f)) s).crcZero = true ↔ f.checksumCorrect := by
  rw [State.crcZero_iff, afterInputs_checkLines_crc, f.checksumCorrect_iff]

/-- Settles O52: the header test decides first and the checksum behind it, which the flag after CHECK
tells as well. -/
theorem validatorOrderAndTheBlock : Obligations.ValidatorOrderAndTheBlock := by
  refine ⟨fun f => ⟨validate_eq_headerMismatch_iff f,
      validate_eq_iff_headers_and nofun validate_eq_checksumMismatch_iff_of_headers,
      validate_eq_iff_headers_and nofun validate_eq_ok_iff_of_headers⟩,
    fun s f h1 h2 => ⟨_, runInputs_eq _ s, ?flag, ?noFlag⟩⟩
  case flag =>
    rw [afterInputs_checkLines_crcZero_iff, validate_eq_ok_iff_of_headers h1 h2]
  case noFlag =>
    rw [← Bool.not_eq_true, afterInputs_checkLines_crcZero_iff,
      validate_eq_checksumMismatch_iff_of_headers h1 h2]

/-! ### The error replies -/

/-- An invalid frame is answered by its error reply and dispatches nothing (R126). -/
theorem handleFrame_of_invalid {f : Frame} (h : validate f ≠ .ok) (order : WriteByteOrder) (bus : Bus)
    (snap : Snapshot) :
    handleFrame order bus f snap = .answered ⟨errorReply (validate f), snap⟩ := by
  unfold handleFrame
  split
  case h_1 hok => exact absurd hok h
  case h_2 => rfl

/-- Settles O53: the two replies by definition, and the answer to an invalid frame. -/
theorem errorReplies : Obligations.ErrorReplies :=
  ⟨rfl, rfl, fun order bus _ snap h => handleFrame_of_invalid h order bus snap⟩

end Sys2Proof.Machine

/-! PROOFS. Reset, power-up and hazards: the steps that forget `crc`, and what a run does when it begins
with one, holds one, or has none (70_reset_and_hazards.md R140 to R149). -/

namespace Sys2Proof.Machine

/-! ### The steps that forget `crc` -/

theorem nextCrc_reset (op : OpCode) (din crc : Byte) : nextCrc true op din crc = 0x00 := rfl
theorem nextCrc_init (din crc : Byte) : nextCrc false Config.OP_INIT din crc = 0x00 := rfl

/-- A reset, INIT or INITUPD step commits the same value whatever `crc` held (R140, R85, R87). -/
theorem nextCrc_forgets {rst : Bool} {op : OpCode} (h : rst = true ∨ op = 0b01 ∨ op = 0b11)
    (din c c' : Byte) : nextCrc rst op din c = nextCrc rst op din c' := by
  cases rst with
  | true => rw [nextCrc_reset, nextCrc_reset]
  | false =>
    rcases h with hrst | rfl | rfl
    · cases hrst
    · exact (nextCrc_init din c).trans (nextCrc_init din c').symm
    · exact (nextCrc_initupd din c).trans (nextCrc_initupd din c').symm

/-- A run that begins with such a step leaves the same `crc` from every state. -/
theorem afterInputs_cons_crc_of_forgets {x : Inputs} (h : x.rst = true ∨ x.op = 0b01 ∨ x.op = 0b11)
    (post : List Inputs) (s s' : State) :
    (afterInputs (x :: post) s).crc = (afterInputs (x :: post) s').crc :=
  afterInputs_crc_congr post (nextCrc_forgets h x.din s.crc s'.crc)

/-- The last step of a held reset leaves zero, whatever came before it. -/
theorem afterInputs_held_reset_crc {ins : List Inputs} (hne : ins ≠ [])
    (hrst : ∀ inp ∈ ins, inp.rst = true) (s : State) : (afterInputs ins s).crc = 0x00 := by
  have hlast : (ins.getLast hne).rst = true := hrst _ (List.getLast_mem hne)
  rw [← List.dropLast_append_getLast hne, afterInputs_concat, afterUnits_crc, hlast, nextCrc_reset]

/-- Bytes fed after one step are folded into the value that step commits. -/
theorem afterInputs_cons_feed_crc (x : Inputs) (bs : List Byte) (s : State) :
    (afterInputs (x :: assemble (feedLines bs)) s).crc =
      fold (nextCrc x.rst x.op x.din s.crc) bs := afterInputs_feed_crc bs (afterUnits x s)

/-! ### The statements -/

/-- Settles O2: the reset step commits the initial value, and only `cmd` reaches the mapper. -/
theorem resetInputWins : Obligations.ResetInputWins := by
  refine ⟨fun s op din cmd => ?step,
    fun s ins hne hrst => ⟨_, runInputs_eq ins s, afterInputs_held_reset_crc hne hrst s⟩,
    fun s rst rst' op din cmd =>
      ⟨_, _, step_present_singleton s _, step_present_singleton s _, ?mapper⟩⟩
  case step => rw [step_present_singleton]; rfl
  case mapper => rw [afterUnits_mapPorts, afterUnits_mapPorts]

/-- Settles O8: a reset and INIT commit the initial value over the power-up one, and CRC begins with a
start of its own. -/
theorem bootFromAnyPowerUpValue : Obligations.BootFromAnyPowerUpValue := by
  intro n op din cmd bs
  refine ⟨_, _, _, runInputs_eq _ _, runInputs_eq _ _, runInputs_eq _ _, ?reset, ?init,
    afterInputs_crcLines_crc bs _⟩
  case reset => rw [afterInputs_cons_feed_crc, nextCrc_reset, compute_eq_fold]
  case init => exact afterInputs_cons_feed_crc (Line.inputs .init) bs _

/-- Settles O12: `crc` is the fold of the next-state function, and no other input is taken or drawn. -/
theorem oneInputAStepInOrder : Obligations.OneInputAStepInOrder := fun s ins =>
  ⟨_, runInputs_eq ins s, afterInputs_crc ins s, afterInputs_pending ins s, afterInputs_draws ins s⟩

/-- Settles O46: without a start the bytes are folded into the old `crc`, and different running values
stay different; the example is evaluated from `0x88`. -/
theorem messageWithoutAStart : Obligations.MessageWithoutAStart := by
  refine ⟨fun s m => ⟨_, runInputs_eq _ s, ?iff⟩, fun s hcrc => ⟨_, runInputs_eq _ s, ?printed⟩⟩
  case iff => rw [afterInputs_feed_crc, fold_eq_compute_iff]
  case printed => rw [afterInputs_feed_crc, hcrc]; decide +kernel

/-- Settles O47: the run splits before the step that forgets what the earlier inputs left. -/
theorem interruptedMessageIsDiscarded : Obligations.InterruptedMessageIsDiscarded := by
  intro s s' pre post x h
  refine ⟨_, _, runInputs_eq _ s, runInputs_eq _ s', ?_⟩
  rw [afterInputs_append]
  exact afterInputs_cons_crc_of_forgets h post _ _

end Sys2Proof.Machine
